-- ==== Sys2Proof/Word.lean ====
section
/-! DEFINITION. The widths OTPCORE works with: bytes, 32-bit bus words, 64-bit quantities and byte buffers of
fixed length (00_scope.md R7, R8). -/

namespace Sys2Proof

/-- One byte of a byte string (R8). -/
abbrev Byte := BitVec 8

/-- One bus data word, and the width of a numeric register (R76). -/
abbrev Word := BitVec 32

/-- A buffer register: a byte string of fixed length, byte 0 first (R8). -/
abbrev Buffer (n : Nat) := Vector Byte n

end Sys2Proof
end

