-- ==== Sys2Proof/Syntax.lean ====
section
/-! DEFINITION. The command set of OTPCORE (30_encoding.md R103): one constructor per row of the opcode table.
A command has no immediate and no register number (R102), so no constructor has a field. -/

namespace Sys2Proof

/-- The nine commands a host can issue (R103). -/
inductive Instr where
  /-- No operation (R237). -/
  | nop
  /-- Serialize the counter to eight big-endian bytes (R121). -/
  | ser
  /-- Derive the counter from the time (R126). -/
  | tstep
  /-- Keyed hash of the serialized counter (R190). -/
  | hmac
  /-- Dynamic truncation of the keyed hash (R201). -/
  | trunc
  /-- Modular reduction and decimal formatting (R206). -/
  | reduce
  /-- Fused computeHOTP (R233). -/
  | hotp
  /-- Fused computeTOTP (R234). -/
  | totp
  /-- Zeroize the secret and everything derived from it (R238). -/
  | clear
deriving DecidableEq, Repr

end Sys2Proof
end

