-- ==== Sys2Proof/WellFormed.lean ====
section
/-! DEFINITION. Which command words are legal (30_encoding.md R101, R103, R104), said without the decoder, and the
well-formedness of an `Instr`. -/

namespace Sys2Proof

/-- The RSVD field of format C, bits 31:8, is zero (R101). -/
def CommandWord.rsvdIsZero (w : Word) : Bool := w.extractLsb' 8 24 == 0

/-- The OPCODE field, bits 7:0, is none of the unassigned values R104 lists: 0x06, 0x07, 0x0A to 0x0E, 0x10 to
0xFF. -/
def CommandWord.opcodeIsAssigned (w : Word) : Bool :=
  let op := (w.extractLsb' 0 8).toNat
  !(op == 0x06 || op == 0x07 || (0x0A ≤ op && op ≤ 0x0E) || 0x10 ≤ op)

/-- A command word is legal when both checks of R104 pass. -/
def CommandWord.wellFormed (w : Word) : Bool :=
  CommandWord.rsvdIsZero w && CommandWord.opcodeIsAssigned w

/-- A command has no operand field, so every `Instr` is well formed (R102). The checks a host's word can fail are
`CommandWord.wellFormed`. -/
def Instr.wellFormed (i : Instr) : Bool :=
  match i with
  | .nop | .ser | .tstep | .hmac | .trunc | .reduce | .hotp | .totp | .clear => true

end Sys2Proof
end

