-- ==== Sys2Proof/Decode.lean ====
section
/-! DEFINITION. The command decoder, total on every 32-bit word and rejecting by name, and the encoder
(30_encoding.md R100 to R104). A command word is one bus word: bit i of the word is bit i of CMD, with no byte
reordering (20_memory.md R76). -/

namespace Sys2Proof

/-- Why a command word is illegal (R104). -/
inductive DecodeError where
  /-- RSVD, bits 31:8, is not zero. -/
  | reservedBits (rsvd : BitVec 24)
  /-- OPCODE, bits 7:0, is assigned to no command. -/
  | unassignedOpcode (opcode : BitVec 8)
deriving DecidableEq, Repr

/-- The OPCODE field of format C, bits 7:0 (R101). -/
def opcodeField (w : Word) : BitVec 8 := w.extractLsb' 0 8

/-- The RSVD field of format C, bits 31:8 (R101). -/
def rsvdField (w : Word) : BitVec 24 := w.extractLsb' 8 24

/-- The opcode assignment of R103. -/
def decodeOpcode (opcode : BitVec 8) : Option Instr :=
  match opcode.toNat with
  | 0x00 => some .nop
  | 0x01 => some .ser
  | 0x02 => some .tstep
  | 0x03 => some .hmac
  | 0x04 => some .trunc
  | 0x05 => some .reduce
  | 0x08 => some .hotp
  | 0x09 => some .totp
  | 0x0F => some .clear
  | _ => none

/-- The decoder of R103: RSVD must be zero, then OPCODE selects the command. -/
def decode (w : Word) : Except DecodeError Instr :=
  if rsvdField w ≠ 0 then .error (.reservedBits (rsvdField w))
  else match decodeOpcode (opcodeField w) with
    | some i => .ok i
    | none => .error (.unassignedOpcode (opcodeField w))

/-- The OPCODE of each command (R103). -/
def encodeOpcode (i : Instr) : BitVec 8 :=
  match i with
  | .nop => 0x00
  | .ser => 0x01
  | .tstep => 0x02
  | .hmac => 0x03
  | .trunc => 0x04
  | .reduce => 0x05
  | .hotp => 0x08
  | .totp => 0x09
  | .clear => 0x0F

/-- The command word of each command: RSVD zero above its OPCODE (R101, R103). -/
def encode (i : Instr) : Word := (0#24 : BitVec 24) ++ encodeOpcode i

/-- What the decoder reads from an instruction whose `nbits` bits are `w`, numbered as the opcode table numbers
them; bits above `nbits` are zero. Every command is exactly one 32-bit word (R100), so more bits are no command. -/
def decodeTableWord (nbits w : Nat) : Option Instr :=
  if nbits ≤ 32 then
    match decode (BitVec.ofNat 32 (w % 2 ^ nbits)) with
    | .ok i => some i
    | .error _ => none
  else none

end Sys2Proof
end

