-- ==== Sys2Proof/Config.lean ====
section
/-! DEFINITION. The parameters of 00_scope.md R6. A fixed parameter has its value here; an OPEN one that the model
names is a constant without a body, so that no proof can rest on a value of it (assumption log 12 and 13). -/

namespace Sys2Proof.Config

/-- OPEN (R6, R70): the platform's 4 KiB page number of the register window. -/
opaque basePage : Nat

/-- `BASE`: the byte address of the window, 4096-byte aligned by construction (R6, R70). -/
def base : Nat := 4096 * basePage

/-- OPEN (R6, R268): the platform interrupt input that `irq` is wired to. -/
opaque irqLine : Nat

/-- `WINDOW`: the size of the register window in bytes (R6). -/
def window : Nat := 4096

/-- `KEY_MAX`: the largest KEYLEN a command accepts (R6, R27). -/
def keyMax : Nat := 128

/-- `DIGITS_MIN` (R6, R210). -/
def digitsMin : Nat := 1

/-- `DIGITS_MAX` (R6, R210). -/
def digitsMax : Nat := 10

/-- The constant the ID register reads, ASCII "OTP1" (R21). -/
def idValue : Word := 0x4F545031

/-- Reset value of CONFIG.ALG: SHA-1 (R6, R26). -/
def resetAlg : BitVec 8 := 0x00

/-- Reset value of CONFIG.DIGITS: six digits (R6, R26). -/
def resetDigits : BitVec 8 := 0x06

/-- Reset value of PERIOD: thirty seconds (R6, R28). -/
def resetPeriod : Word := 0x0000001E

end Sys2Proof.Config
end

