-- ==== Sys2Proof/Machine/State.lean ====
section
/-! DEFINITION. The state of OTPCORE (10_state.md R20 to R45), the events that reach it from outside
(00_scope.md R10, 70_reset_and_hazards.md R300), the reasons a step can stop, and the state after reset.
Everything is plain data. -/

namespace Sys2Proof.Machine

/-- The outcome codes a failing command can record (60_exceptions.md R261); success is no constructor. -/
inductive ErrCode where
  /-- Code 1: RSVD ≠ 0 or an unassigned OPCODE. -/
  | illegalCmd
  /-- Code 2: a valid bit the command needs is 0. -/
  | missingInput
  /-- Code 3: `s32(PERIOD) <= 0`. -/
  | invalidPeriod
  /-- Code 4: the derived counter would be negative. -/
  | counterRange
  /-- Code 5: CONFIG.ALG names no algorithm. -/
  | unsupportedAlg
  /-- Code 6: CONFIG.DIGITS is not in 1..10. -/
  | invalidDigits
  /-- Code 7: KEYLEN is above KEY_MAX. -/
  | keyLength
  /-- Code 8: the truncation window does not fit the hash. -/
  | truncRange
deriving DecidableEq, Repr

/-- The fields of STATUS that hold state (R23); the other bits are RAZ/WI. -/
structure Status where
  busy    : Bool
  done    : Bool
  err     : Bool
  ovr     : Bool
  errCode : BitVec 4
  lastOp  : BitVec 8
deriving DecidableEq, Repr

/-- The bits of VALID that hold state (R25), bit 0 first; the other bits are RAZ/WI. -/
structure Valid where
  key    : Bool
  ctrLo  : Bool
  ctrHi  : Bool
  timeLo : Bool
  timeHi : Bool
  cbuf   : Bool
  hs     : Bool
  otp    : Bool
  code   : Bool
deriving DecidableEq, Repr

/-- The width of a host access; only 32 bits is legal (20_memory.md R72). -/
inductive AccessWidth where
  | w8
  | w16
  | w32
  | w64
deriving DecidableEq, Repr

/-- The address of a host access, in one of two spellings of the same thing (assumption log 12). -/
inductive BusAddr where
  /-- The byte address `BASE + off`, as the spec's programs write it (R70, R106). -/
  | window (off : Nat)
  /-- A byte address of the platform's bus. -/
  | absolute (addr : Nat)
deriving DecidableEq, Repr

/-- One host access (R77, R78). The data of a write that is not 32 bits wide is never looked at, since such a write
is a bus error (assumption log 19). -/
inductive Access where
  | read (width : AccessWidth) (addr : BusAddr)
  | write (width : AccessWidth) (addr : BusAddr) (data : Word)
deriving DecidableEq, Repr

/-- One element of the single sequence of host accesses, engine turns and reset changes (R10, R82, R300). -/
inductive Event where
  /-- A host step: one access of the bus, by a host program for which a bus error is a fault (R80). -/
  | access (a : Access)
  /-- A host step by a host that carries on after an error response: it is answered like any other, and nothing of
  the block changes (R80; 93_implementation_defined.md B6; assumption log 6). -/
  | probe (a : Access)
  /-- The engine's turn: it completes the pending command if there is one (43_fused_control.md R230). -/
  | engine
  /-- The platform drives the reset input `rst` to this level (R300). -/
  | rst (level : Bool)
deriving DecidableEq, Repr

/-- Why an access gets an error response (R72, R73, R71, R80). -/
inductive BusErrorKind where
  /-- The access is not 32 bits wide (R72). -/
  | width
  /-- The offset is no multiple of four (R73). -/
  | misaligned
  /-- The offset is unmapped (R71, R74). -/
  | unmapped
deriving DecidableEq, Repr

/-- What the bus answers to one access (R77, R78, R80). -/
inductive BusReply where
  /-- A read that returns this word. -/
  | data (v : Word)
  /-- A write that got no error response, whether or not it had an effect. -/
  | writeDone
  /-- An error response; a read returns no data. -/
  | busError (why : BusErrorKind)
deriving DecidableEq, Repr

/-- The whole state of the block. Field widths are those of the register fields; RAZ/WI bits hold nothing. -/
structure State where
  /-- CTRL.IE (R22). -/
  ctrlIe   : Bool
  /-- STATUS (R23). -/
  status   : Status
  /-- CONFIG.ALG (R26). -/
  alg      : BitVec 8
  /-- CONFIG.DIGITS (R26). -/
  digits   : BitVec 8
  /-- KEYLEN.LEN (R27). -/
  keyLen   : BitVec 16
  /-- PERIOD (R28). -/
  period   : Word
  /-- VALID (R25). -/
  valid    : Valid
  /-- T0_LO (R29). -/
  t0Lo     : Word
  /-- T0_HI (R29). -/
  t0Hi     : Word
  /-- TIME_LO (R30). -/
  timeLo   : Word
  /-- TIME_HI (R30). -/
  timeHi   : Word
  /-- CTR_LO (R31). -/
  ctrLo    : Word
  /-- CTR_HI (R31). -/
  ctrHi    : Word
  /-- OFFSET (R32). -/
  offset   : BitVec 4
  /-- OTP31 (R33). -/
  otp31    : Word
  /-- CODE (R34). -/
  code     : Word
  /-- HSLEN (R35). -/
  hsLen    : BitVec 8
  /-- CODELEN (R36). -/
  codeLen  : BitVec 8
  /-- CBUF, the serialized counter (R37). -/
  cbuf     : Buffer 8
  /-- DIGBUF, the code as ASCII (R38). -/
  digbuf   : Buffer 12
  /-- HS, the keyed hash (R39). -/
  hs       : Buffer 64
  /-- KEY, the secret (R40). -/
  key      : Buffer 128
  /-- PENDING, the command word latched at acceptance (R42). -/
  pending  : Word
  /-- The level of the reset input `rst` (R300); false is deasserted. -/
  rst      : Bool
  /-- The model's own: the events still to come, next one first (assumption log 1). -/
  inputs   : List Event
  /-- The model's own: the bus's answer to the latest access (assumption log 10). -/
  reply    : Option BusReply
deriving DecidableEq, Repr

/-- Why the machine stops. Raised by the delivery of a host access, never by a command. -/
inductive Fault where
  /-- Raised by an `Event.access` of the window that is not 32-bit, is misaligned or hits an unmapped offset. The
  block's state is unchanged and its bus answers with an error; the spec says to treat it as a fault of the host
  program (R80). Safe (assumption log 6). -/
  | busError (off : Nat) (why : BusErrorKind)
  /-- Raised by an access outside the window, which never reaches the block (R71). Safe (assumption log 7). -/
  | outsideWindow (addr : BusAddr)
  /-- Raised by an access of the window while `rst` is asserted, for which the spec defines no step (R301). Safe
  (assumption log 8). -/
  | accessDuringReset (off : Nat)
deriving DecidableEq, Repr

/-- Why an instruction has no meaning. -/
inductive Refusal where
  /-- Raised by an arm of `exec` for an instruction that has no meaning yet; no arm of this model raises it. Safe. -/
  | notModelled (mnemonic : String)
deriving DecidableEq, Repr

/-- The state right after reset (R45, R300): `rst` has been released and the block is idle. PENDING, which R45
leaves unspecified, is 0 (assumption log 5); `inputs` and `reply` are the model's own and empty (assumption log 1
and 10). -/
def State.reset : State where
  ctrlIe   := false
  status   := { busy := false, done := false, err := false, ovr := false, errCode := 0, lastOp := 0x00 }
  alg      := Config.resetAlg
  digits   := Config.resetDigits
  keyLen   := 0
  period   := Config.resetPeriod
  valid    := { key := false, ctrLo := false, ctrHi := false, timeLo := false, timeHi := false, cbuf := false,
                hs := false, otp := false, code := false }
  t0Lo     := 0
  t0Hi     := 0
  timeLo   := 0
  timeHi   := 0
  ctrLo    := 0
  ctrHi    := 0
  offset   := 0
  otp31    := 0
  code     := 0
  hsLen    := 0
  codeLen  := 0
  cbuf     := Vector.replicate 8 0
  digbuf   := Vector.replicate 12 0
  hs       := Vector.replicate 64 0
  key      := Vector.replicate 128 0
  pending  := 0
  rst      := false
  inputs   := []
  reply    := none

end Sys2Proof.Machine
end

