-- ==== Sys2Proof/Machine/Flags.lean ====
section
/-! DEFINITION. Every computation of a flag: the error codes, the four ways STATUS changes, the words STATUS and
VALID read as, the interrupt line, and the valid bits each command needs. -/

namespace Sys2Proof.Machine

/-- The 4-bit code of each error kind (60_exceptions.md R261). -/
def ErrCode.code (e : ErrCode) : BitVec 4 :=
  match e with
  | .illegalCmd     => 1
  | .missingInput   => 2
  | .invalidPeriod  => 3
  | .counterRange   => 4
  | .unsupportedAlg => 5
  | .invalidDigits  => 6
  | .keyLength      => 7
  | .truncRange     => 8

/-- STATUS after the acceptance of a command whose word has low byte `op` (43_fused_control.md R231). OVR stays. -/
def Status.accepted (st : Status) (op : BitVec 8) : Status :=
  { st with busy := true, done := false, err := false, errCode := 0, lastOp := op }

/-- STATUS after a completion with code `e`, 0 on success (R232). OVR and LASTOP stay. -/
def Status.completed (st : Status) (e : BitVec 4) : Status :=
  { st with busy := false, done := true, err := e != 0, errCode := e }

/-- STATUS after a host write of 1 to its bit 1 (R23): DONE, ERR and ERRCODE clear together. -/
def Status.acknowledged (st : Status) : Status :=
  { st with done := false, err := false, errCode := 0 }

/-- STATUS after a host write of `data` (20_memory.md R78): bit 1 acknowledges, bit 3 clears OVR. -/
def Status.written (st : Status) (data : Word) : Status :=
  let st := if data.getLsbD 1 then st.acknowledged else st
  if data.getLsbD 3 then { st with ovr := false } else st

/-- STATUS after a blocked host write (70_reset_and_hazards.md R311). -/
def Status.overrun (st : Status) : Status := { st with ovr := true }

/-- The word with bit `i` equal to `b` and every other bit 0. -/
def bitAt (i : Nat) (b : Bool) : Word := (BitVec.ofBool b).setWidth 32 <<< i

/-- The word STATUS reads as: the fields at the places R23 gives, RAZ bits 0. -/
def Status.toWord (st : Status) : Word :=
  bitAt 0 st.busy ||| bitAt 1 st.done ||| bitAt 2 st.err ||| bitAt 3 st.ovr
    ||| st.errCode.setWidth 32 <<< 8 ||| st.lastOp.setWidth 32 <<< 16

/-- The word VALID reads as: the bits at the places R25 gives, RAZ bits 0. -/
def Valid.toWord (v : Valid) : Word :=
  bitAt 0 v.key ||| bitAt 1 v.ctrLo ||| bitAt 2 v.ctrHi ||| bitAt 3 v.timeLo ||| bitAt 4 v.timeHi
    ||| bitAt 5 v.cbuf ||| bitAt 6 v.hs ||| bitAt 7 v.otp ||| bitAt 8 v.code

/-- VALID with no bit set: after reset and after CLEAR (R25). -/
def Valid.none : Valid :=
  { key := false, ctrLo := false, ctrHi := false, timeLo := false, timeHi := false, cbuf := false, hs := false,
    otp := false, code := false }

/-- Both counter halves hold a defined value: what SER and HOTP need of COUNTER (60_exceptions.md R262). -/
def Valid.counter (v : Valid) : Bool := v.ctrLo && v.ctrHi

/-- Both time halves hold a defined value: what TSTEP and TOTP need of TIME (R262). -/
def Valid.time (v : Valid) : Bool := v.timeLo && v.timeHi

/-- The level interrupt output, `irq = CTRL.IE & STATUS.DONE` at every instant (10_state.md R44). -/
def State.irq (s : State) : Bool := s.ctrlIe && s.status.done

/-- What the block drives on the platform's interrupt input number `line`: `irq` on the one it is wired to, nothing
on any other (R268). -/
def State.irqOnLine (s : State) (line : Nat) : Bool := line == Config.irqLine && s.irq

end Sys2Proof.Machine
end

