-- ==== Sys2Proof/Machine/Ops.lean ====
section
/-! DEFINITION. The shared operations: byte order (00_scope.md R8, 20_memory.md R75), the commit of each group of
result registers (10_state.md R41, R60), the acceptance of a command word (43_fused_control.md R231), and the
completion of a command, successful or failing (R232, 60_exceptions.md R266). -/

namespace Sys2Proof.Machine

/-- `be_int(s)`: the integer whose big-endian encoding is `s` (R8). -/
def beInt (bytes : List Byte) : Nat := bytes.foldl (fun acc b => acc * 256 + b.toNat) 0

/-- `be_bytes_n(v)`: the n-byte big-endian encoding of `v`; byte 0 holds bits 8n-1 to 8n-8 (R8). -/
def beBytes (n v : Nat) : List Byte := (List.range n).map fun i => BitVec.ofNat 8 (v >>> (8 * (n - 1 - i)))

/-- The buffer that holds `bytes` from byte 0 on and 0x00 after them: `bytes || zeros(n - len(bytes))`. -/
def bufferOf (n : Nat) (bytes : List Byte) : Buffer n := Vector.ofFn fun i => bytes.getD i 0

/-- `zeros(n)` as a buffer (R8). -/
def zeroBuffer (n : Nat) : Buffer n := Vector.replicate n 0

/-- Byte `i` of a buffer, 0x00 beyond its end. -/
def bufferByte {n : Nat} (b : Buffer n) (i : Nat) : Byte := b.toList.getD i 0

/-- Word k of a buffer on the bus: byte 4k in bits 31:24 down to byte 4k+3 in bits 7:0 (R75). -/
def bufferWord {n : Nat} (b : Buffer n) (k : Nat) : Word :=
  (bufferByte b (4 * k)).setWidth 32 <<< 24 ||| (bufferByte b (4 * k + 1)).setWidth 32 <<< 16
    ||| (bufferByte b (4 * k + 2)).setWidth 32 <<< 8 ||| (bufferByte b (4 * k + 3)).setWidth 32

/-- `BUF[4k .. 4k+3] <- be_bytes_4(data)` (R76). -/
def bufferSetWord {n : Nat} (b : Buffer n) (k : Nat) (data : Word) : Buffer n :=
  Vector.ofFn fun i => if i.val / 4 = k then (beBytes 4 data.toNat).getD (i.val % 4) 0 else b[i]

/-- Write STATUS as a whole. -/
def State.setStatus (s : State) (st : Status) : State := { s with status := st }

/-- Write the list of events still to come (the model's own field). -/
def State.setInputs (s : State) (events : List Event) : State := { s with inputs := events }

/-- Write the bus's latest answer (the model's own field). -/
def State.setReply (s : State) (r : BusReply) : State := { s with reply := some r }

/-- COUNTER <- c, with both valid bits (40_counter.md R126). -/
def State.commitCounter (s : State) (c : Nat) : State :=
  { s with
    ctrHi := BitVec.ofNat 32 (c >>> 32)
    ctrLo := BitVec.ofNat 32 c
    valid := { s.valid with ctrLo := true, ctrHi := true } }

/-- CBUF <- bytes, with its valid bit (R121). -/
def State.commitCbuf (s : State) (bytes : List Byte) : State :=
  { s with cbuf := bufferOf 8 bytes, valid := { s.valid with cbuf := true } }

/-- HS <- hash || zeros(64 - len(hash)); HSLEN <- len(hash); HS_V <- 1 (41_hmac.md R190). -/
def State.commitHs (s : State) (hash : List Byte) : State :=
  { s with
    hs := bufferOf 64 hash
    hsLen := BitVec.ofNat 8 hash.length
    valid := { s.valid with hs := true } }

/-- OFFSET and OTP31 <- the result of a truncation, with their valid bit (42_truncate_reduce.md R201). -/
def State.commitOtp (s : State) (offset : BitVec 4) (otp : Word) : State :=
  { s with offset := offset, otp31 := otp, valid := { s.valid with otp := true } }

/-- CODE <- code; CODELEN <- d; DIGBUF <- text || zeros(12 - len(text)); CODE_V <- 1 (R206). -/
def State.commitCode (s : State) (code d : Nat) (text : List Byte) : State :=
  { s with
    code := BitVec.ofNat 32 code
    codeLen := BitVec.ofNat 8 d
    digbuf := bufferOf 12 text
    valid := { s.valid with code := true } }

/-- The secret and everything derived from it at their reset values; CTRL, CONFIG, PERIOD, T0 and STATUS stay
(43_fused_control.md R238). -/
def State.zeroize (s : State) : State :=
  { s with
    key := zeroBuffer 128
    keyLen := 0
    timeLo := 0
    timeHi := 0
    ctrLo := 0
    ctrHi := 0
    cbuf := zeroBuffer 8
    hs := zeroBuffer 64
    hsLen := 0
    offset := 0
    otp31 := 0
    code := 0
    codeLen := 0
    digbuf := zeroBuffer 12
    valid := Valid.none }

/-- Acceptance of the command word `w` at a CMD write while BUSY = 0 (R231). It reads no other register and changes
nothing else. -/
def State.accept (s : State) (w : Word) : State :=
  { s with pending := w, status := s.status.accepted (w.extractLsb' 0 8) }

/-- A successful completion: what is left is STATUS (R232). -/
def State.succeed (s : State) : State := s.setStatus (s.status.completed 0)

/-- A failing completion, the one way a command takes an error: ERRCODE records the code, ERR and DONE are set, BUSY
falls, and nothing else changes (60_exceptions.md R264, R266). -/
def State.fail (s : State) (e : ErrCode) : State := s.setStatus (s.status.completed e.code)

/-- The host's acknowledgement of a completion, the return from it: DONE, ERR and ERRCODE clear, and with DONE the
interrupt line (R269). -/
def State.acknowledge (s : State) : State := s.setStatus s.status.acknowledged

/-- A blocked host write: dropped, OVR set (70_reset_and_hazards.md R311). -/
def State.overrun (s : State) : State := s.setStatus s.status.overrun

/-- The end of a completion step whose command answered `r` at `s`: every update at once on success, STATUS alone on
an error (10_state.md R60, 43_fused_control.md R232). -/
def finish (s : State) (r : Except ErrCode State) : Host.Outcome State Fault Refusal :=
  match r with
  | .ok t => .next t.succeed
  | .error e => .next (s.fail e)

/-- Every register at its reset value with the reset input at `level`; the events still to come are the outside
world's and stay (R45, 70_reset_and_hazards.md R300). -/
def State.resetTo (s : State) (level : Bool) : State :=
  { State.reset with rst := level, inputs := s.inputs }

end Sys2Proof.Machine
end

