-- ==== Sys2Proof/Machine/Control.lean ====
section
/-! DEFINITION. NOP and CLEAR (43_fused_control.md R237, R238). -/

namespace Sys2Proof.Machine

/-- The operation of NOP: success with no updates (R237). -/
def runNop (s : State) : Except ErrCode State := .ok s

/-- NOP (R237, R232). -/
def execNop (s : State) : Host.Outcome State Fault Refusal := finish s (runNop s)

/-- The operation of CLEAR: it reads no operand and cannot fail (R238). -/
def runClear (s : State) : Except ErrCode State := .ok s.zeroize

/-- CLEAR (R238, R232). -/
def execClear (s : State) : Host.Outcome State Fault Refusal := finish s (runClear s)

end Sys2Proof.Machine
end

