-- ==== Sys2Proof/Machine/Operands.lean ====
section
/-! DEFINITION. The implicit operands of the commands (30_encoding.md R102): each is a fixed register or register
field, read as the number or byte string the rules use. -/

namespace Sys2Proof.Machine

/-- The hash algorithms CONFIG.ALG can name (R105). -/
inductive Alg where
  | sha1
  | sha256
  | sha512
deriving DecidableEq, Repr

/-- `COUNTER = u64(CTR_HI : CTR_LO)` (10_state.md R31). -/
def State.counter (s : State) : Nat := (s.ctrHi ++ s.ctrLo).toNat

/-- `TIME = s64(TIME_HI : TIME_LO)` (R30). -/
def State.time (s : State) : Int := (s.timeHi ++ s.timeLo).toInt

/-- `T0 = s64(T0_HI : T0_LO)` (R29). -/
def State.t0 (s : State) : Int := (s.t0Hi ++ s.t0Lo).toInt

/-- The time step X, `s32(PERIOD)` (R28). -/
def State.periodSeconds (s : State) : Int := s.period.toInt

/-- The secret, `KEY[0 .. KEYLEN-1]` (R27). -/
def State.secret (s : State) : List Byte := s.key.toList.take s.keyLen.toNat

/-- KEYLEN is above KEY_MAX, so a command that uses the key fails (R27). -/
def State.keyTooLong (s : State) : Bool := Config.keyMax < s.keyLen.toNat

/-- The stored keyed hash, `HS[0 .. HSLEN-1]` (R39). -/
def State.hash (s : State) : List Byte := s.hs.toList.take s.hsLen.toNat

/-- The algorithm of an ALG code, if it names one (R26, R105). -/
def algOfCode (code : BitVec 8) : Option Alg :=
  match code.toNat with
  | 0 => some .sha1
  | 1 => some .sha256
  | 2 => some .sha512
  | _ => none

/-- CONFIG.DIGITS as a digit count, if it is legal (R26, 42_truncate_reduce.md R210). -/
def State.digitCount? (s : State) : Option Nat :=
  if s.digits.toNat < Config.digitsMin ∨ Config.digitsMax < s.digits.toNat then none else some s.digits.toNat

end Sys2Proof.Machine
end

