-- ==== Sys2Proof/Machine/Counter.lean ====
section
/-! DEFINITION. The counter serializer and the time-step unit, with SER and TSTEP (40_counter.md). -/

namespace Sys2Proof.Machine

/-- `ser(C) = be_bytes_8(C)` (R120). -/
def serializeCounter (c : Nat) : List Byte := beBytes 8 c

/-- `tstep(time, t0, x)`: the floored quotient, after the period check and before the range check (R125). -/
def timeStep (time t0 x : Int) : Except ErrCode Nat :=
  if x ≤ 0 then .error .invalidPeriod
  else
    let q := (time - t0).fdiv x
    if q < 0 then .error .counterRange
    else .ok q.toNat

/-- The operation of SER (R121). -/
def runSer (s : State) : Except ErrCode State :=
  if !s.valid.counter then .error .missingInput
  else .ok (s.commitCbuf (serializeCounter s.counter))

/-- SER (R121, R232). -/
def execSer (s : State) : Host.Outcome State Fault Refusal := finish s (runSer s)

/-- The operation of TSTEP (R126). -/
def runTstep (s : State) : Except ErrCode State :=
  if !s.valid.time then .error .missingInput
  else match timeStep s.time s.t0 s.periodSeconds with
    | .error e => .error e
    | .ok c => .ok (s.commitCounter c)

/-- TSTEP (R126, R232). -/
def execTstep (s : State) : Host.Outcome State Fault Refusal := finish s (runTstep s)

end Sys2Proof.Machine
end

