-- ==== Sys2Proof/Machine/Hash.lean ====
section
/-! DEFINITION. SHA-1, SHA-256 and SHA-512 (41_hmac.md R145 to R176) and HMAC over them (R140, R141). The spec marks
these rules as general knowledge; the model follows them to the letter (assumption log 11). -/

namespace Sys2Proof.Machine

/-- Block size `B_a` in bytes (R141). -/
def Alg.blockBytes (a : Alg) : Nat :=
  match a with
  | .sha1 => 64
  | .sha256 => 64
  | .sha512 => 128

/-- Output length `L_a` in bytes (R141). -/
def Alg.outputBytes (a : Alg) : Nat :=
  match a with
  | .sha1 => 20
  | .sha256 => 32
  | .sha512 => 64

/-! ### Padding and blocks -/

/-- The number of zero bytes of R145: the least z with `(n + 1 + z + F) mod B = 0`. -/
def padZeros (B F n : Nat) : Nat := (B - (n + 1 + F) % B) % B

/-- `pad(M)` for block size B and length-field size F (R145). -/
def pad (B F : Nat) (m : List Byte) : List Byte :=
  m ++ [0x80] ++ List.replicate (padZeros B F m.length) 0 ++ beBytes F (8 * m.length)

/-- The consecutive k-byte pieces of a byte string. -/
def pieces (k : Nat) (m : List Byte) : List (List Byte) :=
  (List.range (m.length / k)).map fun i => (m.drop (i * k)).take k

/-- The words of a block, each w bits, big-endian (R145). -/
def blockWords (w : Nat) (block : List Byte) : List (BitVec w) :=
  (pieces (w / 8) block).map fun c => BitVec.ofNat w (beInt c)

/-- Extend a message schedule by `n` words. The words so far stand newest first, so `W[t-k]` is element `k-1`. -/
def extendSchedule {w : Nat} (next : List (BitVec w) → BitVec w) (n : Nat) (ws : List (BitVec w)) :
    List (BitVec w) :=
  match n with
  | 0 => ws
  | n + 1 => extendSchedule next n (next ws :: ws)

/-- The choice function (R151, R162, R172). -/
def shaCh {w : Nat} (x y z : BitVec w) : BitVec w := (x &&& y) ^^^ (~~~x &&& z)

/-- The majority function (R151, R162, R172). -/
def shaMaj {w : Nat} (x y z : BitVec w) : BitVec w := (x &&& y) ^^^ (x &&& z) ^^^ (y &&& z)

/-- The parity function (R151). -/
def shaParity {w : Nat} (x y z : BitVec w) : BitVec w := x ^^^ y ^^^ z

/-! ### SHA-1 -/

/-- The five state words of SHA-1 (R150). -/
structure Sha1State where
  a : Word
  b : Word
  c : Word
  d : Word
  e : Word
deriving DecidableEq, Repr

/-- The initial state (R150). -/
def sha1Init : Sha1State := ⟨0x67452301, 0xefcdab89, 0x98badcfe, 0x10325476, 0xc3d2e1f0⟩

/-- `f_t(b, c, d)` (R151). -/
def sha1F (t : Nat) (b c d : Word) : Word :=
  if t < 20 then shaCh b c d
  else if t < 40 then shaParity b c d
  else if t < 60 then shaMaj b c d
  else shaParity b c d

/-- `K_t` (R151). -/
def sha1K (t : Nat) : Word :=
  if t < 20 then 0x5a827999
  else if t < 40 then 0x6ed9eba1
  else if t < 60 then 0x8f1bbcdc
  else 0xca62c1d6

/-- The next schedule word: `ROTL^1(W[t-3] ^ W[t-8] ^ W[t-14] ^ W[t-16])` (R152). -/
def sha1Next (ws : List Word) : Word :=
  (ws.getD 2 0 ^^^ ws.getD 7 0 ^^^ ws.getD 13 0 ^^^ ws.getD 15 0).rotateLeft 1

/-- The 80-word schedule of a block (R152). -/
def sha1Schedule (block : List Byte) : List Word :=
  (extendSchedule sha1Next 64 (blockWords 32 block).reverse).reverse

/-- Round t with schedule word `W[t]` (R153). -/
def sha1Round (s : Sha1State) (wt : Word × Nat) : Sha1State where
  a := s.a.rotateLeft 5 + sha1F wt.2 s.b s.c s.d + s.e + sha1K wt.2 + wt.1
  b := s.a
  c := s.b.rotateLeft 30
  d := s.c
  e := s.d

/-- One block of SHA-1 (R153). -/
def sha1Block (h : Sha1State) (block : List Byte) : Sha1State :=
  let r := (sha1Schedule block).zipIdx.foldl sha1Round h
  ⟨h.a + r.a, h.b + r.b, h.c + r.c, h.d + r.d, h.e + r.e⟩

/-- SHA-1, the `H_0` of R153. -/
def sha1 (m : List Byte) : List Byte :=
  let h := (pieces 64 (pad 64 8 m)).foldl sha1Block sha1Init
  beBytes 4 h.a.toNat ++ beBytes 4 h.b.toNat ++ beBytes 4 h.c.toNat ++ beBytes 4 h.d.toNat ++ beBytes 4 h.e.toNat

/-! ### SHA-256 and SHA-512, which share their rounds (R164, R174) -/

/-- The eight state words of SHA-256 (w = 32) and SHA-512 (w = 64) (R160, R170). -/
structure Sha2State (w : Nat) where
  a : BitVec w
  b : BitVec w
  c : BitVec w
  d : BitVec w
  e : BitVec w
  f : BitVec w
  g : BitVec w
  h : BitVec w
deriving DecidableEq, Repr

/-- One round, with the functions Σ0 and Σ1 of the algorithm and the pair `K[t], W[t]` (R164, R174). -/
def sha2Round {w : Nat} (sum0 sum1 : BitVec w → BitVec w) (s : Sha2State w) (kw : BitVec w × BitVec w) :
    Sha2State w :=
  let t1 := s.h + sum1 s.e + shaCh s.e s.f s.g + kw.1 + kw.2
  let t2 := sum0 s.a + shaMaj s.a s.b s.c
  ⟨t1 + t2, s.a, s.b, s.c, s.d + t1, s.e, s.f, s.g⟩

/-- The next schedule word: `σ1(W[t-2]) + W[t-7] + σ0(W[t-15]) + W[t-16]` (R163, R173). -/
def sha2Next {w : Nat} (sig0 sig1 : BitVec w → BitVec w) (ws : List (BitVec w)) : BitVec w :=
  sig1 (ws.getD 1 0) + ws.getD 6 0 + sig0 (ws.getD 14 0) + ws.getD 15 0

/-- One block: the rounds over `K` and the schedule, then the sum with the state before (R164, R174). -/
def sha2Block {w : Nat} (sum0 sum1 sig0 sig1 : BitVec w → BitVec w) (K : List (BitVec w)) (v : Sha2State w)
    (block : List Byte) : Sha2State w :=
  let ws := (extendSchedule (sha2Next sig0 sig1) (K.length - 16) (blockWords w block).reverse).reverse
  let r := (K.zip ws).foldl (sha2Round sum0 sum1) v
  ⟨v.a + r.a, v.b + r.b, v.c + r.c, v.d + r.d, v.e + r.e, v.f + r.f, v.g + r.g, v.h + r.h⟩

/-- The digest: the state words, each big-endian in w/8 bytes, in order (R144). -/
def sha2Digest {w : Nat} (v : Sha2State w) : List Byte :=
  [v.a, v.b, v.c, v.d, v.e, v.f, v.g, v.h].flatMap fun x => beBytes (w / 8) x.toNat

/-- Initial state of SHA-256 (R160). -/
def sha256Init : Sha2State 32 :=
  ⟨0x6a09e667, 0xbb67ae85, 0x3c6ef372, 0xa54ff53a, 0x510e527f, 0x9b05688c, 0x1f83d9ab, 0x5be0cd19⟩

/-- Round constants of SHA-256 (R161). -/
def sha256K : List (BitVec 32) :=
  [0x428a2f98, 0x71374491, 0xb5c0fbcf, 0xe9b5dba5, 0x3956c25b, 0x59f111f1, 0x923f82a4, 0xab1c5ed5] ++
  [0xd807aa98, 0x12835b01, 0x243185be, 0x550c7dc3, 0x72be5d74, 0x80deb1fe, 0x9bdc06a7, 0xc19bf174] ++
  [0xe49b69c1, 0xefbe4786, 0x0fc19dc6, 0x240ca1cc, 0x2de92c6f, 0x4a7484aa, 0x5cb0a9dc, 0x76f988da] ++
  [0x983e5152, 0xa831c66d, 0xb00327c8, 0xbf597fc7, 0xc6e00bf3, 0xd5a79147, 0x06ca6351, 0x14292967] ++
  [0x27b70a85, 0x2e1b2138, 0x4d2c6dfc, 0x53380d13, 0x650a7354, 0x766a0abb, 0x81c2c92e, 0x92722c85] ++
  [0xa2bfe8a1, 0xa81a664b, 0xc24b8b70, 0xc76c51a3, 0xd192e819, 0xd6990624, 0xf40e3585, 0x106aa070] ++
  [0x19a4c116, 0x1e376c08, 0x2748774c, 0x34b0bcb5, 0x391c0cb3, 0x4ed8aa4a, 0x5b9cca4f, 0x682e6ff3] ++
  [0x748f82ee, 0x78a5636f, 0x84c87814, 0x8cc70208, 0x90befffa, 0xa4506ceb, 0xbef9a3f7, 0xc67178f2]

/-- Σ0 of SHA-256 (R162). -/
def sha256Sum0 (x : BitVec 32) : BitVec 32 := x.rotateRight 2 ^^^ x.rotateRight 13 ^^^ x.rotateRight 22

/-- Σ1 of SHA-256 (R162). -/
def sha256Sum1 (x : BitVec 32) : BitVec 32 := x.rotateRight 6 ^^^ x.rotateRight 11 ^^^ x.rotateRight 25

/-- σ0 of SHA-256 (R162). -/
def sha256Sig0 (x : BitVec 32) : BitVec 32 := x.rotateRight 7 ^^^ x.rotateRight 18 ^^^ x >>> 3

/-- σ1 of SHA-256 (R162). -/
def sha256Sig1 (x : BitVec 32) : BitVec 32 := x.rotateRight 17 ^^^ x.rotateRight 19 ^^^ x >>> 10

/-- SHA-256, the `H_1` of R164. -/
def sha256 (m : List Byte) : List Byte :=
  sha2Digest ((pieces 64 (pad 64 8 m)).foldl
    (sha2Block sha256Sum0 sha256Sum1 sha256Sig0 sha256Sig1 sha256K) sha256Init)

/-- Initial state of SHA-512 (R170). -/
def sha512Init : Sha2State 64 :=
  ⟨0x6a09e667f3bcc908, 0xbb67ae8584caa73b, 0x3c6ef372fe94f82b, 0xa54ff53a5f1d36f1,
   0x510e527fade682d1, 0x9b05688c2b3e6c1f, 0x1f83d9abfb41bd6b, 0x5be0cd19137e2179⟩

/-- Round constants of SHA-512 (R171). -/
def sha512K : List (BitVec 64) :=
  [0x428a2f98d728ae22, 0x7137449123ef65cd, 0xb5c0fbcfec4d3b2f, 0xe9b5dba58189dbbc] ++
  [0x3956c25bf348b538, 0x59f111f1b605d019, 0x923f82a4af194f9b, 0xab1c5ed5da6d8118] ++
  [0xd807aa98a3030242, 0x12835b0145706fbe, 0x243185be4ee4b28c, 0x550c7dc3d5ffb4e2] ++
  [0x72be5d74f27b896f, 0x80deb1fe3b1696b1, 0x9bdc06a725c71235, 0xc19bf174cf692694] ++
  [0xe49b69c19ef14ad2, 0xefbe4786384f25e3, 0x0fc19dc68b8cd5b5, 0x240ca1cc77ac9c65] ++
  [0x2de92c6f592b0275, 0x4a7484aa6ea6e483, 0x5cb0a9dcbd41fbd4, 0x76f988da831153b5] ++
  [0x983e5152ee66dfab, 0xa831c66d2db43210, 0xb00327c898fb213f, 0xbf597fc7beef0ee4] ++
  [0xc6e00bf33da88fc2, 0xd5a79147930aa725, 0x06ca6351e003826f, 0x142929670a0e6e70] ++
  [0x27b70a8546d22ffc, 0x2e1b21385c26c926, 0x4d2c6dfc5ac42aed, 0x53380d139d95b3df] ++
  [0x650a73548baf63de, 0x766a0abb3c77b2a8, 0x81c2c92e47edaee6, 0x92722c851482353b] ++
  [0xa2bfe8a14cf10364, 0xa81a664bbc423001, 0xc24b8b70d0f89791, 0xc76c51a30654be30] ++
  [0xd192e819d6ef5218, 0xd69906245565a910, 0xf40e35855771202a, 0x106aa07032bbd1b8] ++
  [0x19a4c116b8d2d0c8, 0x1e376c085141ab53, 0x2748774cdf8eeb99, 0x34b0bcb5e19b48a8] ++
  [0x391c0cb3c5c95a63, 0x4ed8aa4ae3418acb, 0x5b9cca4f7763e373, 0x682e6ff3d6b2b8a3] ++
  [0x748f82ee5defb2fc, 0x78a5636f43172f60, 0x84c87814a1f0ab72, 0x8cc702081a6439ec] ++
  [0x90befffa23631e28, 0xa4506cebde82bde9, 0xbef9a3f7b2c67915, 0xc67178f2e372532b] ++
  [0xca273eceea26619c, 0xd186b8c721c0c207, 0xeada7dd6cde0eb1e, 0xf57d4f7fee6ed178] ++
  [0x06f067aa72176fba, 0x0a637dc5a2c898a6, 0x113f9804bef90dae, 0x1b710b35131c471b] ++
  [0x28db77f523047d84, 0x32caab7b40c72493, 0x3c9ebe0a15c9bebc, 0x431d67c49c100d4c] ++
  [0x4cc5d4becb3e42b6, 0x597f299cfc657e2a, 0x5fcb6fab3ad6faec, 0x6c44198c4a475817]

/-- Σ0 of SHA-512 (R172). -/
def sha512Sum0 (x : BitVec 64) : BitVec 64 := x.rotateRight 28 ^^^ x.rotateRight 34 ^^^ x.rotateRight 39

/-- Σ1 of SHA-512 (R172). -/
def sha512Sum1 (x : BitVec 64) : BitVec 64 := x.rotateRight 14 ^^^ x.rotateRight 18 ^^^ x.rotateRight 41

/-- σ0 of SHA-512 (R172). -/
def sha512Sig0 (x : BitVec 64) : BitVec 64 := x.rotateRight 1 ^^^ x.rotateRight 8 ^^^ x >>> 7

/-- σ1 of SHA-512 (R172). -/
def sha512Sig1 (x : BitVec 64) : BitVec 64 := x.rotateRight 19 ^^^ x.rotateRight 61 ^^^ x >>> 6

/-- SHA-512, the `H_2` of R174. -/
def sha512 (m : List Byte) : List Byte :=
  sha2Digest ((pieces 128 (pad 128 16 m)).foldl
    (sha2Block sha512Sum0 sha512Sum1 sha512Sig0 sha512Sig1 sha512K) sha512Init)

/-! ### HMAC -/

/-- `H_a` (R141). -/
def hashWith (a : Alg) (m : List Byte) : List Byte :=
  match a with
  | .sha1 => sha1 m
  | .sha256 => sha256 m
  | .sha512 => sha512 m

/-- `K0`: the key, hashed first if it is longer than a block, right-padded with 0x00 to a block (R140). -/
def hmacBlockKey (a : Alg) (key : List Byte) : List Byte :=
  let k1 := if key.length > a.blockBytes then hashWith a key else key
  k1 ++ List.replicate (a.blockBytes - k1.length) 0

/-- `HMAC_a(K, m)` (R140). -/
def hmac (a : Alg) (key m : List Byte) : List Byte :=
  let k0 := hmacBlockKey a key
  let ipad := k0.map (· ^^^ 0x36)
  let opad := k0.map (· ^^^ 0x5C)
  hashWith a (opad ++ hashWith a (ipad ++ m))

end Sys2Proof.Machine
end

