-- ==== Sys2Proof/Machine/Keyed.lean ====
section
/-! DEFINITION. The keyed hash of the serialized counter, HMAC (41_hmac.md R190). -/

namespace Sys2Proof.Machine

/-- The operation of HMAC (R190): the checks in priority order, then the hash of CBUF. CONFIG.DIGITS is not read. -/
def runHmac (s : State) : Except ErrCode State :=
  if !(s.valid.cbuf && s.valid.key) then .error .missingInput
  else match algOfCode s.alg with
    | none => .error .unsupportedAlg
    | some a =>
      if s.keyTooLong then .error .keyLength
      else .ok (s.commitHs (hmac a s.secret s.cbuf.toList))

/-- HMAC (R190, R232). -/
def execHmac (s : State) : Host.Outcome State Fault Refusal := finish s (runHmac s)

end Sys2Proof.Machine
end

