-- ==== Sys2Proof/Machine/Truncate.lean ====
section
/-! DEFINITION. The dynamic-truncation unit and the modular-reduction and formatting unit, with TRUNC and REDUCE
(42_truncate_reduce.md). -/

namespace Sys2Proof.Machine

/-- Byte `i` of a byte string. Every index the rules use is in range; 0x00 beyond it makes the function total
(assumption log 15). -/
def byteAt (bytes : List Byte) (i : Nat) : Byte := bytes.getD i 0

/-- `offset = hs[L-1] & 0x0F` (R200). -/
def truncOffset (hs : List Byte) : BitVec 4 := (byteAt hs (hs.length - 1)).setWidth 4

/-- The 31-bit integer of the four bytes at `offset`, the top bit masked (R200). -/
def truncWindow (hs : List Byte) (offset : Nat) : Word :=
  (byteAt hs offset &&& 0x7F).setWidth 32 <<< 24 ||| (byteAt hs (offset + 1)).setWidth 32 <<< 16
    ||| (byteAt hs (offset + 2)).setWidth 32 <<< 8 ||| (byteAt hs (offset + 3)).setWidth 32

/-- `trunc(hs)` (R200). The range check is kept although no supported algorithm can fail it (R203). -/
def truncate (hs : List Byte) : Except ErrCode (BitVec 4 × Word) :=
  let offset := truncOffset hs
  if offset.toNat + 4 > hs.length then .error .truncRange
  else .ok (offset, truncWindow hs offset.toNat)

/-- `reduce(otp, d) = otp mod 10^d` (R205). -/
def reduceCode (otp d : Nat) : Nat := otp % 10 ^ d

/-- `fmt(code, d)`: d ASCII digits, most significant first, left-padded with '0' (R205, R207). -/
def formatCode (code d : Nat) : List Byte :=
  (List.range d).map fun i => BitVec.ofNat 8 (0x30 + code / 10 ^ (d - 1 - i) % 10)

/-- The commit of a code with its text: the padding length is the digit count, never a fixed 6 (R206, R209). -/
def State.commitReduced (s : State) (otp d : Nat) : State :=
  s.commitCode (reduceCode otp d) d (formatCode (reduceCode otp d) d)

/-- The operation of TRUNC (R201): it truncates the hash actually stored, by HSLEN. -/
def runTrunc (s : State) : Except ErrCode State :=
  if !s.valid.hs then .error .missingInput
  else match truncate s.hash with
    | .error e => .error e
    | .ok (offset, otp) => .ok (s.commitOtp offset otp)

/-- TRUNC (R201, R232). -/
def execTrunc (s : State) : Host.Outcome State Fault Refusal := finish s (runTrunc s)

/-- The operation of REDUCE (R206). -/
def runReduce (s : State) : Except ErrCode State :=
  if !s.valid.otp then .error .missingInput
  else match s.digitCount? with
    | none => .error .invalidDigits
    | some d => .ok (s.commitReduced s.otp31.toNat d)

/-- REDUCE (R206, R232). -/
def execReduce (s : State) : Host.Outcome State Fault Refusal := finish s (runReduce s)

end Sys2Proof.Machine
end

