-- ==== Sys2Proof/Machine/Fused.lean ====
section
/-! DEFINITION. The fused commands HOTP and TOTP (43_fused_control.md R233, R234). -/

namespace Sys2Proof.Machine

/-- The pseudocode of HOTP from its ALG check on, for the counter value `c` (R233): the checks in priority order, the
four stages, and the commit of every result at once. Nothing is committed on an error. -/
def computeCode (s : State) (c : Nat) : Except ErrCode State :=
  match algOfCode s.alg with
  | none => .error .unsupportedAlg
  | some a =>
    match s.digitCount? with
    | none => .error .invalidDigits
    | some d =>
      if s.keyTooLong then .error .keyLength
      else
        let cb := serializeCounter c
        let hs := hmac a s.secret cb
        match truncate hs with
        | .error e => .error e
        | .ok (offset, otp) =>
          .ok ((((s.commitCbuf cb).commitHs hs).commitOtp offset otp).commitReduced otp.toNat d)

/-- The operation of HOTP (R233). COUNTER is left as it was. -/
def runHotp (s : State) : Except ErrCode State :=
  if !(s.valid.counter && s.valid.key) then .error .missingInput
  else computeCode s s.counter

/-- HOTP (R233, R232). -/
def execHotp (s : State) : Host.Outcome State Fault Refusal := finish s (runHotp s)

/-- The operation of TOTP (R234): the counter comes from the time, and is committed with the results. -/
def runTotp (s : State) : Except ErrCode State :=
  if !(s.valid.time && s.valid.key) then .error .missingInput
  else match timeStep s.time s.t0 s.periodSeconds with
    | .error e => .error e
    | .ok c =>
      match computeCode s c with
      | .error e => .error e
      | .ok t => .ok (t.commitCounter c)

/-- TOTP (R234, R232). -/
def execTotp (s : State) : Host.Outcome State Fault Refusal := finish s (runTotp s)

end Sys2Proof.Machine
end

