-- ==== Sys2Proof/Machine/Dispatch.lean ====
section
/-! DEFINITION. The meaning of each command: one arm per constructor of `Instr` (43_fused_control.md R232). -/

namespace Sys2Proof.Machine

def exec (i : Instr) (s : State) : Host.Outcome State Fault Refusal :=
  match i with
  | .nop => Sys2Proof.Machine.execNop s
  | .ser => Sys2Proof.Machine.execSer s
  | .tstep => Sys2Proof.Machine.execTstep s
  | .hmac => Sys2Proof.Machine.execHmac s
  | .trunc => Sys2Proof.Machine.execTrunc s
  | .reduce => Sys2Proof.Machine.execReduce s
  | .hotp => Sys2Proof.Machine.execHotp s
  | .totp => Sys2Proof.Machine.execTotp s
  | .clear => Sys2Proof.Machine.execClear s

end Sys2Proof.Machine
end

