-- ==== Sys2Proof/Machine/Window.lean ====
section
/-! DEFINITION. The register window: the map (20_memory.md R74), what a host read returns (R77), what a host write
does (R78), and the bus errors (R71 to R73, R80). -/

namespace Sys2Proof.Machine

/-- The mapped words of the window, under the names of R74. -/
inductive Reg where
  | id
  | ctrl
  | status
  | cmd
  | config
  | keyLen
  | period
  | valid
  | t0Lo
  | t0Hi
  | timeLo
  | timeHi
  | ctrLo
  | ctrHi
  | offset
  | otp31
  | code
  | hsLen
  | codeLen
  | cbuf (k : Fin 2)
  | digbuf (k : Fin 3)
  | hs (k : Fin 16)
  | key (k : Fin 32)
deriving DecidableEq, Repr

/-- The access types of R74. -/
inductive AccessType where
  | rw
  | ro
  | roW1c
  | wo
deriving DecidableEq, Repr

/-- The byte offset of each mapped word (R74). -/
def Reg.byteOffset (r : Reg) : Nat :=
  match r with
  | .id       => 0x000
  | .ctrl     => 0x004
  | .status   => 0x008
  | .cmd      => 0x00C
  | .config   => 0x010
  | .keyLen   => 0x014
  | .period   => 0x018
  | .valid    => 0x01C
  | .t0Lo     => 0x020
  | .t0Hi     => 0x024
  | .timeLo   => 0x028
  | .timeHi   => 0x02C
  | .ctrLo    => 0x030
  | .ctrHi    => 0x034
  | .offset   => 0x038
  | .otp31    => 0x03C
  | .code     => 0x040
  | .hsLen    => 0x044
  | .codeLen  => 0x048
  | .cbuf k   => 0x050 + 4 * k.val
  | .digbuf k => 0x060 + 4 * k.val
  | .hs k     => 0x080 + 4 * k.val
  | .key k    => 0x100 + 4 * k.val

/-- The access type of each mapped word (R74). -/
def Reg.accessType (r : Reg) : AccessType :=
  match r with
  | .ctrl | .config | .keyLen | .period | .t0Lo | .t0Hi | .timeLo | .timeHi | .ctrLo | .ctrHi => .rw
  | .id | .valid | .offset | .otp31 | .code | .hsLen | .codeLen | .cbuf _ | .digbuf _ | .hs _ => .ro
  | .status => .roW1c
  | .cmd | .key _ => .wo

/-- The words of the window from offset 0x000 to 0x048, in order. -/
def plainRegs : List Reg :=
  [.id, .ctrl, .status, .cmd, .config, .keyLen, .period, .valid, .t0Lo, .t0Hi] ++
  [.timeLo, .timeHi, .ctrLo, .ctrHi, .offset, .otp31, .code, .hsLen, .codeLen]

/-- Word number `n` of the group of `count` words that `mk` names, if the group has it. -/
def groupWord (count : Nat) (mk : Fin count → Reg) (n : Nat) : Option Reg :=
  if h : n < count then some (mk ⟨n, h⟩) else none

/-- The mapped word at byte offset `off`, which is a multiple of four; none where the offset is unmapped (R71,
R74). -/
def regAt (off : Nat) : Option Reg :=
  if off < 0x050 then plainRegs[off / 4]?
  else if off < 0x060 then groupWord 2 .cbuf ((off - 0x050) / 4)
  else if off < 0x080 then groupWord 3 .digbuf ((off - 0x060) / 4)
  else if off < 0x100 then groupWord 16 .hs ((off - 0x080) / 4)
  else groupWord 32 .key ((off - 0x100) / 4)

/-- The byte address an access names on the platform's bus (R70, R106). -/
def BusAddr.address (a : BusAddr) : Nat :=
  match a with
  | .window off => Config.base + off
  | .absolute addr => addr

/-- `off = addr - BASE` for an address in the window; none outside it (R70, R71). -/
def BusAddr.windowOffset (a : BusAddr) : Option Nat :=
  match a with
  | .window off => if off < Config.window then some off else none
  | .absolute addr =>
    if Config.base ≤ addr ∧ addr < Config.base + Config.window then some (addr - Config.base) else none

/-- What a host read of a mapped word returns (R77): the current value with RAZ bits 0, and 0 for CMD and KEY. -/
def readReg (s : State) (r : Reg) : Word :=
  match r with
  | .id       => Config.idValue
  | .ctrl     => bitAt 0 s.ctrlIe
  | .status   => s.status.toWord
  | .cmd      => 0
  | .config   => s.alg.setWidth 32 ||| s.digits.setWidth 32 <<< 8
  | .keyLen   => s.keyLen.setWidth 32
  | .period   => s.period
  | .valid    => s.valid.toWord
  | .t0Lo     => s.t0Lo
  | .t0Hi     => s.t0Hi
  | .timeLo   => s.timeLo
  | .timeHi   => s.timeHi
  | .ctrLo    => s.ctrLo
  | .ctrHi    => s.ctrHi
  | .offset   => s.offset.setWidth 32
  | .otp31    => s.otp31
  | .code     => s.code
  | .hsLen    => s.hsLen.setWidth 32
  | .codeLen  => s.codeLen.setWidth 32
  | .cbuf k   => bufferWord s.cbuf k.val
  | .digbuf k => bufferWord s.digbuf k.val
  | .hs k     => bufferWord s.hs k.val
  | .key _    => 0

/-- The effect of a host write that is neither ignored nor blocked: the last part of R78, with STATUS.BUSY = 0. The
words that R78 handles before it (read-only words, CTRL, STATUS) have no effect here. -/
def writeInput (s : State) (r : Reg) (data : Word) : State :=
  match r with
  | .cmd      => s.accept data
  | .config   => { s with alg := data.extractLsb' 0 8, digits := data.extractLsb' 8 8 }
  | .keyLen   => { s with keyLen := data.extractLsb' 0 16, valid := { s.valid with key := true } }
  | .period   => { s with period := data }
  | .t0Lo     => { s with t0Lo := data }
  | .t0Hi     => { s with t0Hi := data }
  | .timeLo   => { s with timeLo := data, valid := { s.valid with timeLo := true } }
  | .timeHi   => { s with timeHi := data, valid := { s.valid with timeHi := true } }
  | .ctrLo    => { s with ctrLo := data, valid := { s.valid with ctrLo := true } }
  | .ctrHi    => { s with ctrHi := data, valid := { s.valid with ctrHi := true } }
  | .key k    => { s with key := bufferSetWord s.key k.val data }
  | .id | .ctrl | .status | .valid | .offset | .otp31 | .code | .hsLen | .codeLen
  | .cbuf _ | .digbuf _ | .hs _ => s

/-- A host write of a mapped word (R78), in the order of its cases: read-only words ignore it, CTRL and STATUS take
it at any time, every other word is blocked while BUSY = 1. -/
def writeReg (s : State) (r : Reg) (data : Word) : State :=
  if r.accessType = .ro then s
  else if r = .ctrl then { s with ctrlIe := data.getLsbD 0 }
  else if r = .status then s.setStatus (s.status.written data)
  else if s.status.busy then s.overrun
  else writeInput s r data

/-- The mapped word an access of this width at window offset `off` selects, or the reason for a bus error
(R72, R73, R71). -/
def selectReg (width : AccessWidth) (off : Nat) : Except BusErrorKind Reg :=
  if width ≠ .w32 then .error .width
  else if off % 4 ≠ 0 then .error .misaligned
  else match regAt off with
    | none => .error .unmapped
    | some r => .ok r

/-- A host read at window offset `off`: the bus's answer; no read has a side effect (R77, R80). -/
def busRead (s : State) (width : AccessWidth) (off : Nat) : BusReply :=
  match selectReg width off with
  | .error why => .busError why
  | .ok r => .data (readReg s r)

/-- A host write at window offset `off`: the bus's answer and the state after it; a bus error changes no state
(R78, R80). -/
def busWrite (s : State) (width : AccessWidth) (off : Nat) (data : Word) : BusReply × State :=
  match selectReg width off with
  | .error why => (.busError why, s)
  | .ok r => (.writeDone, writeReg s r data)

/-- One access of the window: the bus's answer and the state after it. -/
def busAccess (s : State) (a : Access) (off : Nat) : BusReply × State :=
  match a with
  | .read width _ => (busRead s width off, s)
  | .write width _ data => busWrite s width off data

/-- The address of an access. -/
def Access.busAddr (a : Access) : BusAddr :=
  match a with
  | .read _ addr => addr
  | .write _ addr _ => addr

end Sys2Proof.Machine
end

