-- ==== Sys2Proof/Machine/Engine.lean ====
section
/-! DEFINITION. What each kind of event does: the engine's completion step (43_fused_control.md R230, R232), the
delivery of a host access (20_memory.md R70 to R80), and a change of the reset input (70_reset_and_hazards.md R300). -/

namespace Sys2Proof.Machine

/-- The completion of the pending command (R232): an illegal word fails with ILLEGAL_CMD, any other runs its
command. -/
def completePending (s : State) : Host.Outcome State Fault Refusal :=
  match decode s.pending with
  | .error _ => .next (s.fail .illegalCmd)
  | .ok i => exec i s

/-- The engine's turn. While `rst` is asserted every register takes its reset value (R300; assumption log 22); else
the engine completes the pending command exactly when BUSY = 1 (R230), and nothing moves while it is idle
(70_reset_and_hazards.md R320). -/
def engineTurn (s : State) : Host.Outcome State Fault Refusal :=
  if s.rst then .next (s.resetTo true)
  else if s.status.busy then completePending s
  else .next s

/-- The window offset at which a host access reaches the block. Outside the window it never does (R71); while `rst`
is asserted there is no defined step (R301). -/
def reachWindow (s : State) (a : Access) : Except Fault Nat :=
  match a.busAddr.windowOffset with
  | none => .error (.outsideWindow a.busAddr)
  | some off => if s.rst then .error (.accessDuringReset off) else .ok off

/-- A host access by a program for which a bus error is a fault (R80): the run stops there with the state
unchanged; any other access takes effect and the bus's answer is recorded. -/
def hostAccess (s : State) (a : Access) : Host.Outcome State Fault Refusal :=
  match reachWindow s a with
  | .error f => .fault f
  | .ok off =>
    match busAccess s a off with
    | (.busError why, _) => .fault (.busError off why)
    | (r, t) => .next (t.setReply r)

/-- A host access by a host that carries on after an error response: the bus's answer is recorded, and an error
response changes nothing else (R80; 93_implementation_defined.md B6). -/
def hostProbe (s : State) (a : Access) : Host.Outcome State Fault Refusal :=
  match reachWindow s a with
  | .error f => .fault f
  | .ok off =>
    match busAccess s a off with
    | (r, t) => .next (t.setReply r)

/-- The platform drives `rst` to `level` (R300): assertion, and release after an assertion, put every register at
its reset value and abandon a command in flight; driving a released line low changes nothing. -/
def driveReset (s : State) (level : Bool) : State :=
  if level || s.rst then s.resetTo level else s

/-- One event of the sequence of host accesses, engine turns and reset changes (R82). -/
def deliver (s : State) (e : Event) : Host.Outcome State Fault Refusal :=
  match e with
  | .access a => hostAccess s a
  | .probe a => hostProbe s a
  | .engine => engineTurn s
  | .rst level => .next (driveReset s level)

/-- One step: the next event; once the events are used up, the engine's turn (43_fused_control.md R239; assumption
log 2). -/
def nextStep (s : State) : Host.Outcome State Fault Refusal :=
  match s.inputs with
  | [] => engineTurn s
  | e :: rest => deliver (s.setInputs rest) e

/-- The state in which the command word `w` has just been accepted and the engine has the next turn. -/
def State.withCommand (s : State) (w : Word) : State :=
  ({ s with rst := false, inputs := .engine :: s.inputs } : State).accept w

end Sys2Proof.Machine
end

