-- ==== Sys2Proof/Machine/Step.lean ====
section
/-! DEFINITION. The step of the machine, and where its next command stands. -/

namespace Sys2Proof.Machine

/-- One step of OTPCORE: one element of the sequence of host accesses, engine turns and reset changes. -/
def step (s : State) : Host.Outcome State Fault Refusal := nextStep s

/-- `s` with the command word `w` accepted and the engine's turn next, so that `step` decodes and runs exactly it.
A command word reaches the engine through PENDING, as a CMD write leaves it (43_fused_control.md R231; assumption
log 4). Bits of `w` above `nbits` are zero. -/
def State.withFetchWord (s : State) (nbits w : Nat) : State :=
  s.withCommand (BitVec.ofNat 32 (w % 2 ^ nbits))

end Sys2Proof.Machine
end

