-- ==== Sys2Proof/Safety.lean ====
section
/-! DEFINITION. What the claims call a sound state of OTPCORE, part by part, and a legal host access. Every part is
an invariant the rules state or imply; statements that need a sound state name the part they need. -/

namespace Sys2Proof.Machine

/-- The invariants of STATUS (10_state.md R23), and no reserved code (60_exceptions.md R261). -/
abbrev Status.Sound (st : Status) : Prop :=
  (st.busy = true → st.done = false ∧ st.err = false ∧ st.errCode = 0) ∧
  (st.err = true ↔ st.errCode ≠ 0) ∧
  (st.err = true → st.done = true) ∧
  st.errCode.toNat ≤ 8

/-- HSLEN is a digest length while HS_V = 1 and 0 else (10_state.md R35); HS is 0x00 from HSLEN on (R39). -/
abbrev State.HashSound (s : State) : Prop :=
  (s.valid.hs = true → s.hsLen.toNat = 20 ∨ s.hsLen.toNat = 32 ∨ s.hsLen.toNat = 64) ∧
  (s.valid.hs = false → s.hsLen.toNat = 0) ∧
  (∀ i : Fin 64, s.hsLen.toNat ≤ i.val → s.hs[i] = 0)

/-- OTP31 has bit 31 clear (10_state.md R33); OFFSET and OTP31 are 0 while OTP_V = 0. -/
abbrev State.OtpSound (s : State) : Prop :=
  s.otp31.toNat < 2 ^ 31 ∧ (s.valid.otp = false → s.offset = 0 ∧ s.otp31 = 0)

/-- CODE, CODELEN and DIGBUF agree while CODE_V = 1 (42_truncate_reduce.md R208) and are 0 else. -/
abbrev State.CodeSound (s : State) : Prop :=
  s.code.toNat < 2 ^ 31 ∧
  (s.valid.code = true →
    1 ≤ s.codeLen.toNat ∧ s.codeLen.toNat ≤ 10 ∧ s.code.toNat < 10 ^ s.codeLen.toNat ∧
    s.digbuf = bufferOf 12 (formatCode s.code.toNat s.codeLen.toNat)) ∧
  (s.valid.code = false → s.code = 0 ∧ s.codeLen = 0 ∧ s.digbuf = zeroBuffer 12)

/-- A register whose valid bit is 0 holds its reset value (10_state.md R25, R45). KEY is not among them: its words
can be written before KEYLEN (70_reset_and_hazards.md R321). -/
abbrev State.UnwrittenSound (s : State) : Prop :=
  (s.valid.key = false → s.keyLen = 0) ∧
  (s.valid.ctrLo = false → s.ctrLo = 0) ∧
  (s.valid.ctrHi = false → s.ctrHi = 0) ∧
  (s.valid.timeLo = false → s.timeLo = 0) ∧
  (s.valid.timeHi = false → s.timeHi = 0) ∧
  (s.valid.cbuf = false → s.cbuf = zeroBuffer 8)

/-- While `rst` is asserted every register is at its reset value (70_reset_and_hazards.md R300). -/
abbrev State.ResetSound (s : State) : Prop := s.rst = true → s = s.resetTo true

/-- A sound state: all of the above. The state after reset is one, and every step keeps it. -/
structure State.Inv (s : State) : Prop where
  status    : s.status.Sound
  hash      : s.HashSound
  otp       : s.OtpSound
  code      : s.CodeSound
  unwritten : s.UnwrittenSound
  inReset   : s.ResetSound

/-- The access width of an access. -/
def Access.width (a : Access) : AccessWidth :=
  match a with
  | .read w _ => w
  | .write w _ _ => w

/-- A legal host access: in the window, 32 bits wide, aligned, mapped, and not while `rst` is asserted (20_memory.md
R71 to R73, 70_reset_and_hazards.md R301). -/
def Access.legalAt (a : Access) (s : State) (off : Nat) (r : Reg) : Prop :=
  a.busAddr.windowOffset = some off ∧ s.rst = false ∧ a.width = .w32 ∧ off % 4 = 0 ∧ regAt off = some r

end Sys2Proof.Machine
end

