-- ==== Sys2Proof/Certificates/Slice0/Obligations.lean ====
section
/-! DEFINITION. The statements for the provers, each a rule of the spec or a consequence of several, and the small
vocabulary they share. -/

open Sys2Proof Sys2Proof.Machine

namespace Sys2Proof.Claims

/-- `s` after a successful completion that wrote nothing but STATUS (43_fused_control.md R232). -/
def succeeded (s : State) : State :=
  { s with status := { busy := false, done := true, err := false, ovr := s.status.ovr, errCode := 0,
                       lastOp := s.status.lastOp } }

/-- `s` after a completion that failed with error code `n` (R232, 60_exceptions.md R266). -/
def failed (s : State) (n : BitVec 4) : State :=
  { s with status := { busy := false, done := true, err := true, ovr := s.status.ovr, errCode := n,
                       lastOp := s.status.lastOp } }

/-- `s` after the acceptance of the word `w` (43_fused_control.md R231). -/
def accepted (s : State) (w : Word) : State :=
  { s with pending := w
           status := { busy := true, done := false, err := false, ovr := s.status.ovr, errCode := 0,
                       lastOp := w.extractLsb' 0 8 } }

/-- `s` with a dropped host write recorded (70_reset_and_hazards.md R311). -/
def overrun (s : State) : State := { s with status := { s.status with ovr := true } }

/-- The illegal command words, as 30_encoding.md R104 lists them. -/
def IllegalWord (w : Word) : Prop :=
  w.extractLsb' 8 24 ≠ 0 ∨ (w.extractLsb' 0 8).toNat ∈ [0x06, 0x07, 0x0A, 0x0B, 0x0C, 0x0D, 0x0E] ∨
    0x10 ≤ (w.extractLsb' 0 8).toNat

/-- `q` is the greatest integer not above `n / x` (00_scope.md R7). -/
def IsFloor (q : Nat) (n x : Int) : Prop := (q : Int) * x ≤ n ∧ n < ((q : Int) + 1) * x

/-- `s` with COUNTER <- q and both valid bits set (40_counter.md R126). -/
def withCounter (s : State) (q : Nat) : State :=
  { s with ctrHi := BitVec.ofNat 32 (q / 2 ^ 32), ctrLo := BitVec.ofNat 32 (q % 2 ^ 32)
           valid := { s.valid with ctrLo := true, ctrHi := true } }

/-- The registers a command writes on success, by their names in the window (30_encoding.md R102). -/
def writes (i : Instr) (r : Reg) : Bool :=
  match i, r with
  | .ser, .cbuf _ => true
  | .tstep, .ctrLo | .tstep, .ctrHi => true
  | .hmac, .hs _ | .hmac, .hsLen => true
  | .trunc, .offset | .trunc, .otp31 => true
  | .reduce, .code | .reduce, .codeLen | .reduce, .digbuf _ => true
  | .hotp, .cbuf _ | .hotp, .hs _ | .hotp, .hsLen | .hotp, .offset | .hotp, .otp31 => true
  | .hotp, .code | .hotp, .codeLen | .hotp, .digbuf _ => true
  | .totp, .cbuf _ | .totp, .hs _ | .totp, .hsLen | .totp, .offset | .totp, .otp31 => true
  | .totp, .code | .totp, .codeLen | .totp, .digbuf _ | .totp, .ctrLo | .totp, .ctrHi => true
  | .clear, .keyLen | .clear, .timeLo | .clear, .timeHi | .clear, .ctrLo | .clear, .ctrHi => true
  | .clear, .cbuf _ | .clear, .hs _ | .clear, .hsLen | .clear, .offset | .clear, .otp31 => true
  | .clear, .code | .clear, .codeLen | .clear, .digbuf _ | .clear, .key _ => true
  | _, _ => false

/-- VALID after a successful command (10_state.md R25, 30_encoding.md R102). -/
def validAfter (i : Instr) (v : Valid) : Valid :=
  match i with
  | .nop => v
  | .ser => { v with cbuf := true }
  | .tstep => { v with ctrLo := true, ctrHi := true }
  | .hmac => { v with hs := true }
  | .trunc => { v with otp := true }
  | .reduce => { v with code := true }
  | .hotp | .totp => { v with ctrLo := true, ctrHi := true, cbuf := true, hs := true, otp := true, code := true }
  | .clear => { key := false, ctrLo := false, ctrHi := false, timeLo := false, timeHi := false, cbuf := false,
                hs := false, otp := false, code := false }

/-- The valid bits a command needs (60_exceptions.md R262, code 2). -/
def needs (i : Instr) (v : Valid) : Bool :=
  match i with
  | .nop | .clear => true
  | .ser => v.ctrLo && v.ctrHi
  | .tstep => v.timeLo && v.timeHi
  | .hmac => v.cbuf && v.key
  | .trunc => v.hs
  | .reduce => v.otp
  | .hotp => v.ctrLo && v.ctrHi && v.key
  | .totp => v.timeLo && v.timeHi && v.key

/-- `a` is the algorithm whose code CONFIG.ALG holds: 0 = SHA-1, 1 = SHA-256, 2 = SHA-512 (30_encoding.md R105). -/
def AlgIs (s : State) (a : Alg) : Prop :=
  (s.alg = 0 ∧ a = .sha1) ∨ (s.alg = 1 ∧ a = .sha256) ∨ (s.alg = 2 ∧ a = .sha512)

/-- The hash a fused command truncates, for the counter it uses. -/
def freshHash (i : Instr) (s : State) (a : Alg) : List Byte :=
  hmac a s.secret (beBytes 8 (if i = .totp then ((s.time - s.t0).fdiv s.periodSeconds).toNat else s.counter))

/-- The conditions of the table of 60_exceptions.md R262: command `i` run at `s` can raise `e`. -/
def Cause (i : Instr) (s : State) (e : ErrCode) : Prop :=
  match e with
  | .illegalCmd => False
  | .missingInput => needs i s.valid = false
  | .invalidPeriod => (i = .tstep ∨ i = .totp) ∧ s.period.toInt ≤ 0
  | .counterRange => (i = .tstep ∨ i = .totp) ∧ s.time < s.t0
  | .unsupportedAlg => (i = .hmac ∨ i = .hotp ∨ i = .totp) ∧ 3 ≤ s.alg.toNat
  | .invalidDigits =>
    (i = .reduce ∨ i = .hotp ∨ i = .totp) ∧ (s.digits.toNat < 1 ∨ 10 < s.digits.toNat)
  | .keyLength => (i = .hmac ∨ i = .hotp ∨ i = .totp) ∧ 128 < s.keyLen.toNat
  | .truncRange =>
    (i = .trunc ∧ s.hash.length < (truncOffset s.hash).toNat + 4) ∨
    ((i = .hotp ∨ i = .totp) ∧ ∃ a, AlgIs s a ∧
      (freshHash i s a).length < (truncOffset (freshHash i s a)).toNat + 4)

/-- `s` and `s'` agree on every input that 30_encoding.md R102 lists for the command. -/
def sameInputs (i : Instr) (s s' : State) : Prop :=
  match i with
  | .nop | .clear => True
  | .ser => s.counter = s'.counter ∧ s.valid.ctrLo = s'.valid.ctrLo ∧ s.valid.ctrHi = s'.valid.ctrHi
  | .tstep => s.time = s'.time ∧ s.t0 = s'.t0 ∧ s.period = s'.period ∧ s.valid.timeLo = s'.valid.timeLo ∧
      s.valid.timeHi = s'.valid.timeHi
  | .hmac => s.cbuf = s'.cbuf ∧ s.secret = s'.secret ∧ s.keyLen = s'.keyLen ∧ s.alg = s'.alg ∧
      s.valid.cbuf = s'.valid.cbuf ∧ s.valid.key = s'.valid.key
  | .trunc => s.hs = s'.hs ∧ s.hsLen = s'.hsLen ∧ s.valid.hs = s'.valid.hs
  | .reduce => s.otp31 = s'.otp31 ∧ s.digits = s'.digits ∧ s.valid.otp = s'.valid.otp
  | .hotp => s.counter = s'.counter ∧ s.secret = s'.secret ∧ s.keyLen = s'.keyLen ∧ s.alg = s'.alg ∧
      s.digits = s'.digits ∧ s.valid.ctrLo = s'.valid.ctrLo ∧ s.valid.ctrHi = s'.valid.ctrHi ∧
      s.valid.key = s'.valid.key
  | .totp => s.time = s'.time ∧ s.t0 = s'.t0 ∧ s.period = s'.period ∧ s.secret = s'.secret ∧
      s.keyLen = s'.keyLen ∧ s.alg = s'.alg ∧ s.digits = s'.digits ∧ s.valid.timeLo = s'.valid.timeLo ∧
      s.valid.timeHi = s'.valid.timeHi ∧ s.valid.key = s'.valid.key

/-- `s` with every result a fused command commits (43_fused_control.md R233), for the counter value `c`, the hash
`h`, the truncation `off`, `otp` and the digit count `d`. COUNTER is not among them. -/
def withCode (s : State) (c : Nat) (h : List Byte) (off : BitVec 4) (otp : Word) (d : Nat) : State :=
  { s with
    cbuf := bufferOf 8 (beBytes 8 c)
    hs := bufferOf 64 h
    hsLen := BitVec.ofNat 8 h.length
    offset := off
    otp31 := otp
    code := BitVec.ofNat 32 (otp.toNat % 10 ^ d)
    codeLen := BitVec.ofNat 8 d
    digbuf := bufferOf 12 (formatCode (otp.toNat % 10 ^ d) d)
    valid := { s.valid with ctrLo := true, ctrHi := true, cbuf := true, hs := true, otp := true, code := true } }

/-- The output length in bytes of each algorithm, as the table of 41_hmac.md R141 gives it. -/
def digestBytes (a : Alg) : Nat :=
  match a with
  | .sha1 => 20
  | .sha256 => 32
  | .sha512 => 64

/-- The decimal value of a string of ASCII digits, most significant first. -/
def decimalValue (text : List Byte) : Nat := text.foldl (fun acc b => acc * 10 + (b.toNat - 0x30)) 0

/-- The command `i` issued at `s` and completed: acceptance, then its completion step (R231, R232). -/
def issued (i : Instr) (s : State) : Host.Outcome State Fault Refusal := exec i (accepted s (encode i))

/-- The registers a host write of which is dropped while BUSY = 1 (70_reset_and_hazards.md R311). -/
def blockedWhenBusy (r : Reg) : Bool :=
  match r with
  | .cmd | .config | .keyLen | .period | .t0Lo | .t0Hi | .timeLo | .timeHi | .ctrLo | .ctrHi | .key _ => true
  | _ => false

/-- The read-only words of 20_memory.md R78. -/
def readOnly (r : Reg) : Bool :=
  match r with
  | .id | .valid | .offset | .otp31 | .code | .hsLen | .codeLen | .cbuf _ | .digbuf _ | .hs _ => true
  | _ => false

/-- KEY with the bytes of word `k` set to those of `v`, the most significant first (20_memory.md R75, R76). -/
def keyWithWord (key : Buffer 128) (k : Fin 32) (v : Word) : Buffer 128 :=
  Vector.ofFn fun j => if j.val / 4 = k.val then v.extractLsb' (24 - 8 * (j.val % 4)) 8 else key[j]

/-- The single words of the map of 20_memory.md R74, as its table gives them: offset, name, access type. The rows of
CBUF, DIGBUF, HS and KEY are not in it. -/
def registerMap : List (Nat × Reg × AccessType) :=
  [(0x000, .id, .ro), (0x004, .ctrl, .rw), (0x008, .status, .roW1c), (0x00C, .cmd, .wo), (0x010, .config, .rw),
   (0x014, .keyLen, .rw), (0x018, .period, .rw), (0x01C, .valid, .ro), (0x020, .t0Lo, .rw), (0x024, .t0Hi, .rw),
   (0x028, .timeLo, .rw), (0x02C, .timeHi, .rw), (0x030, .ctrLo, .rw), (0x034, .ctrHi, .rw), (0x038, .offset, .ro),
   (0x03C, .otp31, .ro), (0x040, .code, .ro), (0x044, .hsLen, .ro), (0x048, .codeLen, .ro)]

end Sys2Proof.Claims

open Sys2Proof.Claims

/-! ### Encoding -/

/-- The nine command words of 30_encoding.md R103, both ways. A sanity statement over written-out words. -/
def Obligations.OpcodeTableWords : Prop :=
  (encode .nop = 0x00000000 ∧ encode .ser = 0x00000001 ∧ encode .tstep = 0x00000002 ∧ encode .hmac = 0x00000003 ∧
   encode .trunc = 0x00000004 ∧ encode .reduce = 0x00000005 ∧ encode .hotp = 0x00000008 ∧
   encode .totp = 0x00000009 ∧ encode .clear = 0x0000000F) ∧
  (∀ i : Instr, decode (encode i) = .ok i)

/-- R103: a decoder selects the row by `word == command word`, over every 32-bit word, with the command words of the
table; equivalently it tests the top 24 bits for zero and then OPCODE. -/
def Obligations.DecoderSelectsByCommandWord : Prop :=
  (∀ w : Word,
    (decode w = .ok .nop ↔ w = 0x00000000) ∧ (decode w = .ok .ser ↔ w = 0x00000001) ∧
    (decode w = .ok .tstep ↔ w = 0x00000002) ∧ (decode w = .ok .hmac ↔ w = 0x00000003) ∧
    (decode w = .ok .trunc ↔ w = 0x00000004) ∧ (decode w = .ok .reduce ↔ w = 0x00000005) ∧
    (decode w = .ok .hotp ↔ w = 0x00000008) ∧ (decode w = .ok .totp ↔ w = 0x00000009) ∧
    (decode w = .ok .clear ↔ w = 0x0000000F)) ∧
  (∀ (w : Word) (i : Instr), decode w = .ok i ↔
    w &&& 0xFFFFFF00 = 0 ∧ w.extractLsb' 0 8 = (encode i).extractLsb' 0 8)

/-- R104: the words the decoder rejects are exactly the illegal ones, and no other word fails the check of
WellFormed. -/
def Obligations.RejectedWordsAreTheIllegalOnes : Prop :=
  ∀ w : Word, ((∃ e, decode w = .error e) ↔ IllegalWord w) ∧ (CommandWord.wellFormed w = false ↔ IllegalWord w)

/-- R104: an illegal word written to CMD while BUSY = 0 is accepted, and completes with ERRCODE 1 and nothing else
written. -/
def Obligations.IllegalWordIsAcceptedThenFails : Prop :=
  ∀ (s : State) (w : Word) (rest : List Event), IllegalWord w → s.rst = false → s.status.busy = false →
    writeReg s .cmd w = accepted s w ∧
    step { accepted s w with inputs := .engine :: rest } =
      .next (failed { accepted s w with inputs := rest } 1)

/-! ### The step -/

/-- R230, R232: the engine's turn with BUSY = 1 runs the command the decoder reads from PENDING, whether the turn
is the next event or, the model's choice of assumption log 2, the events are used up. -/
def Obligations.StepRunsDecodedCommand : Prop :=
  ∀ (s : State) (i : Instr) (rest : List Event), s.rst = false → s.status.busy = true → decode s.pending = .ok i →
    (s.inputs = .engine :: rest → step s = exec i { s with inputs := rest }) ∧
    (s.inputs = [] → step s = exec i s)

/-- A command word placed where `step` takes its next command is run by the very next step, as just accepted.
Where that is, is the model's choice (assumption log 4). -/
def Obligations.PlacedCommandIsRunNext : Prop :=
  ∀ (s : State) (i : Instr),
    step (s.withFetchWord 32 (encode i).toNat) = exec i (accepted { s with rst := false } (encode i))

/-- R231: acceptance of any word at a CMD write, and the drop of one while BUSY = 1; the interrupt line falls. -/
def Obligations.CommandAcceptance : Prop :=
  ∀ (s : State) (w : Word),
    (s.status.busy = true → writeReg s .cmd w = overrun s) ∧
    (s.status.busy = false → writeReg s .cmd w = accepted s w ∧ (writeReg s .cmd w).irq = false)

/-- R230 and R231 in one run of the model's list of events (assumption log 1): a CMD write and the engine's turn after it complete the command written. -/
def Obligations.IssuedCommandCompletes : Prop :=
  ∀ (s : State) (i : Instr), s.rst = false → s.status.busy = false →
    s.inputs = [.access (.write .w32 (.window 0x00C) (encode i)), .engine] →
    Host.Core.run core 2 s =
      exec i (accepted { s with inputs := [], reply := some .writeDone } (encode i))

/-- R230, R232, R266: every command completes; BUSY falls and DONE rises; a failing command writes STATUS and
nothing else. -/
def Obligations.CommandsCompletePrecisely : Prop :=
  ∀ (i : Instr) (s : State), ∃ t, exec i s = .next t ∧
    t.status.busy = false ∧ t.status.done = true ∧ t.status.err = (t.status.errCode != 0) ∧
    t.status.ovr = s.status.ovr ∧ t.status.lastOp = s.status.lastOp ∧
    (t.status.errCode ≠ 0 → t = failed s t.status.errCode)

/-- R230: BUSY returns to 0 only by the engine's completion step or by reset. PENDING and the model's own fields are
left open after a reset. That the step taken once the events are used up is an engine's turn is the model's choice
(assumption log 2). -/
def Obligations.OnlyCompletionOrResetEndsBusy : Prop :=
  ∀ s t : State, step s = .next t → s.status.busy = true → t.status.busy = false →
    (s.rst = false ∧ (s.inputs = [] ∨ ∃ rest, s.inputs = .engine :: rest) ∧ t.status.done = true) ∨
    (t = { State.reset with rst := t.rst, inputs := t.inputs, pending := t.pending, reply := t.reply })

/-- R320: nothing changes while BUSY = 0, an engine's turn included. That an engine's turn while idle is a step at all
(assumption log 3), and that the step taken once the events are used up is one (assumption log 2), are the model's
choices. -/
def Obligations.IdleEngineChangesNothing : Prop :=
  ∀ (s : State) (rest : List Event), s.rst = false → s.status.busy = false →
    (s.inputs = [] → step s = .next s) ∧
    (s.inputs = .engine :: rest → step s = .next { s with inputs := rest })

/-! ### The unit commands -/

/-- R237: NOP succeeds with no updates. -/
def Obligations.NopResult : Prop := ∀ s : State, exec .nop s = .next (succeeded s)

/-- R121: SER writes the counter to CBUF, most significant byte first, or fails with MISSING_INPUT. -/
def Obligations.SerResult : Prop :=
  ∀ s : State,
    (s.valid.ctrLo = false ∨ s.valid.ctrHi = false → exec .ser s = .next (failed s 2)) ∧
    (s.valid.ctrLo = true → s.valid.ctrHi = true → exec .ser s = .next (succeeded
      { s with cbuf := Vector.ofFn fun i => (s.ctrHi ++ s.ctrLo).extractLsb' (56 - 8 * i.val) 8
               valid := { s.valid with cbuf := true } }))

/-- R122: after a SER the two words of CBUF read as the two halves of COUNTER, and CBUF's integer is COUNTER. -/
def Obligations.SerPreservesCounter : Prop :=
  ∀ s : State, s.valid.ctrLo = true → s.valid.ctrHi = true →
    ∃ t, exec .ser s = .next t ∧ readReg t (.cbuf 0) = s.ctrHi ∧ readReg t (.cbuf 1) = s.ctrLo ∧
      beInt t.cbuf.toList = s.counter ∧ t.counter = s.counter

/-- R126, R125, R129: TSTEP writes the floored quotient, which always fits COUNTER, or fails with the first of
MISSING_INPUT, INVALID_PERIOD and COUNTER_RANGE that applies. -/
def Obligations.TstepResult : Prop :=
  ∀ s : State,
    (s.valid.timeLo = false ∨ s.valid.timeHi = false → exec .tstep s = .next (failed s 2)) ∧
    (s.valid.timeLo = true → s.valid.timeHi = true →
      (s.periodSeconds ≤ 0 → exec .tstep s = .next (failed s 3)) ∧
      (0 < s.periodSeconds → s.time < s.t0 → exec .tstep s = .next (failed s 4)) ∧
      (0 < s.periodSeconds → s.t0 ≤ s.time → ∃ q : Nat, q < 2 ^ 64 ∧ IsFloor q (s.time - s.t0) s.periodSeconds ∧
        exec .tstep s = .next (succeeded (withCounter s q))))

/-- R190: HMAC writes the keyed hash of CBUF and its length, or fails with the first of MISSING_INPUT,
UNSUPPORTED_ALG and KEY_LENGTH that applies. -/
def Obligations.HmacResult : Prop :=
  ∀ s : State,
    (s.valid.cbuf = false ∨ s.valid.key = false → exec .hmac s = .next (failed s 2)) ∧
    (s.valid.cbuf = true → s.valid.key = true →
      (3 ≤ s.alg.toNat → exec .hmac s = .next (failed s 5)) ∧
      (s.alg.toNat ≤ 2 → 128 < s.keyLen.toNat → exec .hmac s = .next (failed s 7)) ∧
      (∀ a, AlgIs s a → s.keyLen.toNat ≤ 128 → exec .hmac s = .next (succeeded
        { s with hs := bufferOf 64 (hmac a (s.key.toList.take s.keyLen.toNat) s.cbuf.toList)
                 hsLen := BitVec.ofNat 8 (digestBytes a)
                 valid := { s.valid with hs := true } })))

/-- R201, R200: TRUNC takes the low nibble of the last stored hash byte as the offset and the 31-bit integer there,
or fails with the range check kept; for every HSLEN from 1 to 64, of which a run can leave 20, 32 and 64. -/
def Obligations.TruncResult : Prop :=
  ∀ s : State,
    (s.valid.hs = false → exec .trunc s = .next (failed s 2)) ∧
    (∀ off : Nat, s.valid.hs = true → 1 ≤ s.hsLen.toNat → s.hsLen.toNat ≤ 64 →
      off = (bufferByte s.hs (s.hsLen.toNat - 1)).toNat % 16 →
      (s.hsLen.toNat < off + 4 → exec .trunc s = .next (failed s 8)) ∧
      (off + 4 ≤ s.hsLen.toNat → exec .trunc s = .next (succeeded
        { s with offset := BitVec.ofNat 4 off
                 otp31 := BitVec.ofNat 32 (beInt [bufferByte s.hs off, bufferByte s.hs (off + 1),
                   bufferByte s.hs (off + 2), bufferByte s.hs (off + 3)] % 2 ^ 31)
                 valid := { s.valid with otp := true } })))

/-- R203, R191: from a state whose stored hash is one a command left, no command ever reports TRUNC_RANGE. -/
def Obligations.TruncRangeIsUnreachable : Prop :=
  ∀ (i : Instr) (s t : State), s.HashSound → exec i s = .next t → t.status.errCode ≠ 8

/-- R206, R205, R207: REDUCE writes the remainder, the digit count and the ASCII digits, padded to DIGITS and then
with 0x00, or fails with MISSING_INPUT or INVALID_DIGITS. -/
def Obligations.ReduceResult : Prop :=
  ∀ s : State,
    (s.valid.otp = false → exec .reduce s = .next (failed s 2)) ∧
    (s.valid.otp = true → s.digits.toNat < 1 ∨ 10 < s.digits.toNat → exec .reduce s = .next (failed s 6)) ∧
    (s.valid.otp = true → 1 ≤ s.digits.toNat → s.digits.toNat ≤ 10 → exec .reduce s = .next (succeeded
      { s with code := BitVec.ofNat 32 (s.otp31.toNat % 10 ^ s.digits.toNat)
               codeLen := s.digits
               digbuf := Vector.ofFn fun i =>
                 if i.val < s.digits.toNat then
                   BitVec.ofNat 8 (0x30 + s.otp31.toNat % 10 ^ s.digits.toNat / 10 ^ (s.digits.toNat - 1 - i.val) % 10)
                 else 0
               valid := { s.valid with code := true } }))

/-- R238: CLEAR returns the secret and everything derived from it to zero and leaves the rest; after it every
computing command fails with MISSING_INPUT. -/
def Obligations.ClearResult : Prop :=
  ∀ s : State, ∃ t, exec .clear s = .next t ∧
    t = succeeded
      { s with key := Vector.replicate 128 0, keyLen := 0, timeLo := 0, timeHi := 0, ctrLo := 0, ctrHi := 0
               cbuf := Vector.replicate 8 0, hs := Vector.replicate 64 0, hsLen := 0, offset := 0, otp31 := 0
               code := 0, codeLen := 0, digbuf := Vector.replicate 12 0
               valid := { key := false, ctrLo := false, ctrHi := false, timeLo := false, timeHi := false,
                          cbuf := false, hs := false, otp := false, code := false } } ∧
    (∀ i : Instr, i ≠ .nop → i ≠ .clear → exec i t = .next (failed t 2))

/-! ### The fused commands -/

/-- R233: HOTP commits every result at once for the counter as it stands, or fails with the first error that
applies. -/
def Obligations.HotpResult : Prop :=
  ∀ s : State,
    (s.valid.ctrLo = false ∨ s.valid.ctrHi = false ∨ s.valid.key = false → exec .hotp s = .next (failed s 2)) ∧
    (s.valid.ctrLo = true → s.valid.ctrHi = true → s.valid.key = true →
      (3 ≤ s.alg.toNat → exec .hotp s = .next (failed s 5)) ∧
      (s.alg.toNat ≤ 2 → s.digits.toNat < 1 ∨ 10 < s.digits.toNat → exec .hotp s = .next (failed s 6)) ∧
      (s.alg.toNat ≤ 2 → 1 ≤ s.digits.toNat → s.digits.toNat ≤ 10 → 128 < s.keyLen.toNat →
        exec .hotp s = .next (failed s 7)) ∧
      (∀ a, AlgIs s a → 1 ≤ s.digits.toNat → s.digits.toNat ≤ 10 → s.keyLen.toNat ≤ 128 →
        ∃ off otp, truncate (hmac a s.secret (beBytes 8 s.counter)) = .ok (off, otp) ∧
          exec .hotp s = .next (succeeded
            (withCode s s.counter (hmac a s.secret (beBytes 8 s.counter)) off otp s.digits.toNat))))

/-- R234: TOTP derives the counter from the time and then does what HOTP does with it, committing the counter too;
the period checks come before the others, and no failure writes COUNTER. -/
def Obligations.TotpResult : Prop :=
  ∀ s : State,
    (s.valid.timeLo = false ∨ s.valid.timeHi = false ∨ s.valid.key = false → exec .totp s = .next (failed s 2)) ∧
    (s.valid.timeLo = true → s.valid.timeHi = true → s.valid.key = true →
      (s.periodSeconds ≤ 0 → exec .totp s = .next (failed s 3)) ∧
      (0 < s.periodSeconds → s.time < s.t0 → exec .totp s = .next (failed s 4)) ∧
      (0 < s.periodSeconds → s.t0 ≤ s.time →
        (3 ≤ s.alg.toNat → exec .totp s = .next (failed s 5)) ∧
        (s.alg.toNat ≤ 2 → s.digits.toNat < 1 ∨ 10 < s.digits.toNat → exec .totp s = .next (failed s 6)) ∧
        (s.alg.toNat ≤ 2 → 1 ≤ s.digits.toNat → s.digits.toNat ≤ 10 → 128 < s.keyLen.toNat →
          exec .totp s = .next (failed s 7)) ∧
        (∀ a, AlgIs s a → 1 ≤ s.digits.toNat → s.digits.toNat ≤ 10 → s.keyLen.toNat ≤ 128 →
          ∃ q off otp, IsFloor q (s.time - s.t0) s.periodSeconds ∧
            truncate (hmac a s.secret (beBytes 8 q)) = .ok (off, otp) ∧
            exec .totp s = .next (succeeded
              (withCode (withCounter s q) q (hmac a s.secret (beBytes 8 q)) off otp s.digits.toNat)))))

/-- R130: with T0 = 0 and PERIOD = 30, TOTP gives the code that HOTP gives for COUNTER = floor(TIME / 30). -/
def Obligations.TotpIsHotpAtTheTimeStep : Prop :=
  ∀ s s' t : State, s.t0 = 0 → s.period = 30 → 0 ≤ s.time → s.valid.timeLo = true → s.valid.timeHi = true →
    s'.counter = (s.time / 30).toNat → s'.valid.ctrLo = true → s'.valid.ctrHi = true →
    s'.secret = s.secret → s'.keyLen = s.keyLen → s'.valid.key = s.valid.key → s'.alg = s.alg →
    s'.digits = s.digits → exec .totp s = .next t →
    ∃ t', exec .hotp s' = .next t' ∧ t'.status.errCode = t.status.errCode ∧
      (t.status.errCode = 0 → t'.code = t.code ∧ t'.codeLen = t.codeLen ∧ t'.digbuf = t.digbuf ∧ t'.hs = t.hs ∧
        t'.hsLen = t.hsLen ∧ t'.offset = t.offset ∧ t'.otp31 = t.otp31 ∧ t'.cbuf = t.cbuf)

/-- R240: from a state in which HOTP succeeds, SER, HMAC, TRUNC and REDUCE issued one after another each succeed,
and leave the state HOTP leaves, but for the latched command word and its LASTOP. -/
def Obligations.StepwiseEqualsHotp : Prop :=
  ∀ s t : State, issued .hotp s = .next t → t.status.errCode = 0 →
    ∃ s1 s2 s3 s4, issued .ser s = .next s1 ∧ s1.status.errCode = 0 ∧
      issued .hmac s1 = .next s2 ∧ s2.status.errCode = 0 ∧
      issued .trunc s2 = .next s3 ∧ s3.status.errCode = 0 ∧
      issued .reduce s3 = .next s4 ∧ s4.status.errCode = 0 ∧
      s4 = { t with pending := 0x00000005, status := { t.status with lastOp := 0x05 } }

/-- R240: TSTEP followed by that sequence likewise equals TOTP. -/
def Obligations.StepwiseEqualsTotp : Prop :=
  ∀ s t : State, issued .totp s = .next t → t.status.errCode = 0 →
    ∃ s0 s1 s2 s3 s4, issued .tstep s = .next s0 ∧ s0.status.errCode = 0 ∧
      issued .ser s0 = .next s1 ∧ s1.status.errCode = 0 ∧
      issued .hmac s1 = .next s2 ∧ s2.status.errCode = 0 ∧
      issued .trunc s2 = .next s3 ∧ s3.status.errCode = 0 ∧
      issued .reduce s3 = .next s4 ∧ s4.status.errCode = 0 ∧
      s4 = { t with pending := 0x00000005, status := { t.status with lastOp := 0x05 } }

/-- R208: after any successful REDUCE, HOTP or TOTP the string has DIGITS digits, the code is below 10^DIGITS, and
the string's decimal value is the code. OTP31 is below 2^31, as 10_state.md R33 says it always is. -/
def Obligations.OutputInvariants : Prop :=
  ∀ (i : Instr) (s t : State), i = .reduce ∨ i = .hotp ∨ i = .totp → s.otp31.toNat < 2 ^ 31 →
    exec i s = .next t → t.status.errCode = 0 →
    t.codeLen = s.digits ∧ t.code.toNat ≤ 10 ^ t.codeLen.toNat - 1 ∧
    decimalValue (t.digbuf.toList.take t.codeLen.toNat) = t.code.toNat ∧
    (∀ j : Fin 12, j.val < t.codeLen.toNat → 0x30 ≤ t.digbuf[j].toNat ∧ t.digbuf[j].toNat ≤ 0x39) ∧
    (∀ j : Fin 12, t.codeLen.toNat ≤ j.val → t.digbuf[j] = 0)

/-! ### Rules over all commands -/

/-- R262, R263: a command reports the smallest code whose condition holds and fails precisely, and succeeds exactly
when no condition holds. An illegal word reports code 1 whatever else holds. -/
def Obligations.SmallestErrorCodeWins : Prop :=
  (∀ s : State, IllegalWord s.pending → completePending s = .next (failed s 1)) ∧
  (∀ (i : Instr) (s : State), ∃ t, exec i s = .next t ∧
    ((t.status.errCode = 0 ∧ ∀ e, ¬ Cause i s e) ∨
     (∃ e, Cause i s e ∧ (∀ e', Cause i s e' → e.code.toNat ≤ e'.code.toNat) ∧ t = failed s e.code)))

/-- R41, R102: no command changes a register of the window that its row of R102 does not name, nor KEY (but for
CLEAR), PENDING, OVR, LASTOP, the reset input, the events to come or the bus's answer; VALID changes only as R25
says. -/
def Obligations.CommandFrame : Prop :=
  ∀ (i : Instr) (s t : State), exec i s = .next t →
    (∀ r : Reg, r ≠ .status → r ≠ .valid → writes i r = false → readReg t r = readReg s r) ∧
    (i ≠ .clear → t.key = s.key) ∧
    t.pending = s.pending ∧ t.rst = s.rst ∧ t.inputs = s.inputs ∧ t.reply = s.reply ∧
    t.status.ovr = s.status.ovr ∧ t.status.lastOp = s.status.lastOp ∧
    (t.status.errCode = 0 → t.valid = validAfter i s.valid) ∧ (t.status.errCode ≠ 0 → t.valid = s.valid)

/-- R12, R102: a command's outcome and results are a function of the inputs R102 names for it and nothing else. -/
def Obligations.ResultsDependOnNamedInputsOnly : Prop :=
  ∀ (i : Instr) (s s' t t' : State), sameInputs i s s' → exec i s = .next t → exec i s' = .next t' →
    t.status.errCode = t'.status.errCode ∧
    (t.status.errCode = 0 → ∀ r : Reg, writes i r = true → readReg t r = readReg t' r)

/-- R40, R190: KEY bytes at index ≥ KEYLEN affect no command: changing them changes nothing but themselves. -/
def Obligations.KeyBytesBeyondKeylenAreUnread : Prop :=
  ∀ (i : Instr) (s : State) (k : Buffer 128),
    (∀ j : Fin 128, j.val < s.keyLen.toNat → k[j] = s.key[j]) → i ≠ .clear →
    ∃ t, exec i s = .next t ∧ exec i { s with key := k } = .next { t with key := k }

/-! ### The hash functions -/

/-- R141, R176: each hash gives exactly its output length for every message, and so does HMAC for every key and
message. The spec marks its hash rules as general knowledge (assumption log 11). -/
def Obligations.DigestLengths : Prop :=
  ∀ (a : Alg) (key m : List Byte),
    (hashWith a m).length = digestBytes a ∧
    (hmac a key m).length = digestBytes a

/-- R145: the padded message is the message, 0x80, the least number of zero bytes that makes it a whole number of
blocks, and the bit length in F bytes, the most significant first; it is split into its blocks of B bytes, and a block
into its sixteen big-endian words. The spec marks the rule as general knowledge (assumption log 11). -/
def Obligations.PaddingIsLeast : Prop :=
  (∀ (B F : Nat) (m : List Byte), 0 < B → ∃ z : Nat,
    pad B F m = m ++ [0x80] ++ List.replicate z 0 ++ beBytes F (8 * m.length) ∧
    (m.length + 1 + z + F) % B = 0 ∧ (∀ z' : Nat, (m.length + 1 + z' + F) % B = 0 → z ≤ z') ∧
    (beBytes F (8 * m.length)).length = F ∧
    (8 * m.length < 256 ^ F → beInt (beBytes F (8 * m.length)) = 8 * m.length) ∧
    (pieces B (pad B F m)).flatten = pad B F m ∧ (∀ block ∈ pieces B (pad B F m), block.length = B)) ∧
  (∀ (w : Nat) (block : List Byte), w = 32 ∨ w = 64 → block.length = 16 * (w / 8) →
    (blockWords w block).length = 16 ∧
    (∀ j : Nat, j < 16 →
      (blockWords w block)[j]? = some (BitVec.ofNat w (beInt ((block.drop (j * (w / 8))).take (w / 8))))))

/-- R140, R142: a key longer than a block acts as its own digest does, and a short key acts as it does padded with
one 0x00 (assumption log 11). -/
def Obligations.HmacKeyNormalisation : Prop :=
  ∀ (a : Alg) (key m : List Byte),
    (a.blockBytes < key.length → hmac a key m = hmac a (hashWith a key) m) ∧
    (key.length < a.blockBytes → hmac a key m = hmac a (key ++ [0x00]) m)

/-! ### The window -/

/-- R70, R71: an address is in the window exactly when it is one of the 4096 bytes from BASE, which is 4096-byte
aligned; both of the model's spellings of an address (assumption log 12) name the same offset. -/
def Obligations.WindowAddresses : Prop :=
  Config.base % 4096 = 0 ∧
  (∀ a : BusAddr, a.windowOffset =
    if Config.base ≤ a.address ∧ a.address ≤ Config.base + 0xFFF then some (a.address - Config.base) else none)

/-- R74: every mapped word is at the offset the table gives it and nowhere else, with the table's access type, and the
aligned unmapped offsets are exactly those listed. -/
def Obligations.RegisterMap : Prop :=
  (∀ p ∈ registerMap, regAt p.1 = some p.2.1 ∧ p.2.1.accessType = p.2.2) ∧
  (∀ k : Fin 2, regAt (0x050 + 4 * k.val) = some (.cbuf k) ∧ (Reg.cbuf k).accessType = .ro) ∧
  (∀ k : Fin 3, regAt (0x060 + 4 * k.val) = some (.digbuf k) ∧ (Reg.digbuf k).accessType = .ro) ∧
  (∀ k : Fin 16, regAt (0x080 + 4 * k.val) = some (.hs k) ∧ (Reg.hs k).accessType = .ro) ∧
  (∀ k : Fin 32, regAt (0x100 + 4 * k.val) = some (.key k) ∧ (Reg.key k).accessType = .wo) ∧
  (∀ (off : Nat) (r : Reg), off % 4 = 0 → (regAt off = some r ↔ off = r.byteOffset)) ∧
  (∀ off : Nat, off % 4 = 0 → off < 0x1000 → (regAt off = none ↔
    off = 0x04C ∨ off = 0x058 ∨ off = 0x05C ∨ (0x06C ≤ off ∧ off ≤ 0x07C) ∨ (0x0C0 ≤ off ∧ off ≤ 0x0FC) ∨
    0x180 ≤ off))

/-- R77, R79: a legal read answers the word's current value, 0 for CMD and KEY, and has no side effect, in either kind
of host step (assumption log 6). The record of the answer is the model's own (assumption log 10). -/
def Obligations.ReadsHaveNoSideEffect : Prop :=
  ∀ (s : State) (r : Reg) (addr : BusAddr) (rest : List Event), s.rst = false →
    addr.windowOffset = some r.byteOffset →
    s.inputs = .access (.read .w32 addr) :: rest ∨ s.inputs = .probe (.read .w32 addr) :: rest →
    step s = .next { s with inputs := rest, reply := some (.data (readReg s r)) } ∧
    (r.accessType = .wo → readReg s r = 0)

/-- R77, R78: a legal write is answered and does what the register's write does, in either kind of host step
(assumption log 6). The record of the answer is the model's own (assumption log 10). -/
def Obligations.WritesTakeEffect : Prop :=
  ∀ (s : State) (r : Reg) (addr : BusAddr) (v : Word) (rest : List Event), s.rst = false →
    addr.windowOffset = some r.byteOffset →
    s.inputs = .access (.write .w32 addr v) :: rest ∨ s.inputs = .probe (.write .w32 addr v) :: rest →
    step s = .next { writeReg { s with inputs := rest } r v with reply := some .writeDone }

/-- R78: what a host write does, case by case, in the rule's order. -/
def Obligations.WriteEffects : Prop :=
  ∀ (s : State) (v : Word),
    (∀ r : Reg, readOnly r = true → writeReg s r v = s) ∧
    writeReg s .ctrl v = { s with ctrlIe := v.getLsbD 0 } ∧
    writeReg s .status v = { s with status :=
      { busy := s.status.busy
        done := if v.getLsbD 1 then false else s.status.done
        err := if v.getLsbD 1 then false else s.status.err
        ovr := if v.getLsbD 3 then false else s.status.ovr
        errCode := if v.getLsbD 1 then 0 else s.status.errCode
        lastOp := s.status.lastOp } } ∧
    (s.status.busy = true → ∀ r : Reg, blockedWhenBusy r = true → writeReg s r v = overrun s) ∧
    (s.status.busy = false →
      writeReg s .cmd v = accepted s v ∧
      writeReg s .config v = { s with alg := v.extractLsb' 0 8, digits := v.extractLsb' 8 8 } ∧
      writeReg s .keyLen v = { s with keyLen := v.extractLsb' 0 16, valid := { s.valid with key := true } } ∧
      writeReg s .period v = { s with period := v } ∧
      writeReg s .t0Lo v = { s with t0Lo := v } ∧ writeReg s .t0Hi v = { s with t0Hi := v } ∧
      writeReg s .timeLo v = { s with timeLo := v, valid := { s.valid with timeLo := true } } ∧
      writeReg s .timeHi v = { s with timeHi := v, valid := { s.valid with timeHi := true } } ∧
      writeReg s .ctrLo v = { s with ctrLo := v, valid := { s.valid with ctrLo := true } } ∧
      writeReg s .ctrHi v = { s with ctrHi := v, valid := { s.valid with ctrHi := true } } ∧
      (∀ k : Fin 32, writeReg s (.key k) v = { s with key := keyWithWord s.key k v }))

/-- R311, R310: while BUSY = 1 a write to a command or input register is dropped and sets OVR, a write to a
read-only word is ignored, and CTRL and STATUS writes take effect. -/
def Obligations.BusyBlocksInputWrites : Prop :=
  ∀ (s : State) (r : Reg) (v : Word), s.status.busy = true →
    (blockedWhenBusy r = true → writeReg s r v = overrun s) ∧
    (readOnly r = true → writeReg s r v = s) ∧
    writeReg s .ctrl v = { s with ctrlIe := v.getLsbD 0 } ∧
    (writeReg s .status v).status.busy = true ∧
    (v.getLsbD 3 = true → (writeReg s .status v).status.ovr = false)

/-- R84, R310, R312: while BUSY = 1 no host step changes an input, a result, VALID or PENDING; it can change CTRL.IE and
the host's bits of STATUS, and BUSY and LASTOP stay. -/
def Obligations.HostStepsWhileBusyChangeOnlyCtrlAndStatus : Prop :=
  ∀ (s t : State) (a : Access), s.status.busy = true →
    (deliver s (.access a) = .next t ∨ deliver s (.probe a) = .next t) →
    t = { s with ctrlIe := t.ctrlIe, reply := t.reply
                 status := { t.status with busy := true, lastOp := s.status.lastOp } }

/-- R311, R23: OVR, once set, is cleared by nothing but a host write of 1 to STATUS bit 3 and a reset. -/
def Obligations.OverrunStaysUntilCleared : Prop :=
  ∀ s t : State, step s = .next t → s.status.ovr = true → t.status.ovr = false →
    s.rst = true ∨ t.rst = true ∨ ∃ addr v rest, addr.windowOffset = some 0x008 ∧ v.getLsbD 3 = true ∧
      (s.inputs = .access (.write .w32 addr v) :: rest ∨ s.inputs = .probe (.write .w32 addr v) :: rest)

/-- R22, R26 to R31: what a writable register reads as after a write while idle, and no other register of the window
but VALID changes. -/
def Obligations.WritesReadBack : Prop :=
  ∀ (s : State) (v : Word), s.status.busy = false →
    readReg (writeReg s .ctrl v) .ctrl = v &&& 0x00000001 ∧
    readReg (writeReg s .config v) .config = v &&& 0x0000FFFF ∧
    readReg (writeReg s .keyLen v) .keyLen = v &&& 0x0000FFFF ∧
    (∀ r : Reg, r ∈ [Reg.period, .t0Lo, .t0Hi, .timeLo, .timeHi, .ctrLo, .ctrHi] → readReg (writeReg s r v) r = v) ∧
    (∀ r r' : Reg, r ≠ .cmd → r ≠ .status → r' ≠ r → r' ≠ .valid → readReg (writeReg s r v) r' = readReg s r')

/-- R75, R76: a write of KEY word k stores its four bytes, the most significant first, and no other byte of KEY; a
buffer word reads with its first byte in bits 31:24. -/
def Obligations.BufferLaneOrder : Prop :=
  (∀ (s : State) (k : Fin 32) (v : Word) (j : Fin 128), s.status.busy = false →
    (writeReg s (.key k) v).key[j] =
      if j.val / 4 = k.val then v.extractLsb' (24 - 8 * (j.val % 4)) 8 else s.key[j]) ∧
  (∀ (s : State) (k : Fin 16) (j : Fin 4),
    (readReg s (.hs k)).extractLsb' (24 - 8 * j.val) 8 = bufferByte s.hs (4 * k.val + j.val)) ∧
  (∀ (s : State) (k : Fin 2) (j : Fin 4),
    (readReg s (.cbuf k)).extractLsb' (24 - 8 * j.val) 8 = bufferByte s.cbuf (4 * k.val + j.val)) ∧
  (∀ (s : State) (k : Fin 3) (j : Fin 4),
    (readReg s (.digbuf k)).extractLsb' (24 - 8 * j.val) 8 = bufferByte s.digbuf (4 * k.val + j.val))

/-- R23, R25: every bit of the words STATUS and VALID read as; the reserved bits read 0. -/
def Obligations.StatusAndValidWords : Prop :=
  ∀ (s : State) (i : Nat), i < 32 →
    (readReg s .status).getLsbD i =
      (if i = 0 then s.status.busy else if i = 1 then s.status.done else if i = 2 then s.status.err
       else if i = 3 then s.status.ovr else if 8 ≤ i ∧ i ≤ 11 then s.status.errCode.getLsbD (i - 8)
       else if 16 ≤ i ∧ i ≤ 23 then s.status.lastOp.getLsbD (i - 16) else false) ∧
    (readReg s .valid).getLsbD i =
      (if i = 0 then s.valid.key else if i = 1 then s.valid.ctrLo else if i = 2 then s.valid.ctrHi
       else if i = 3 then s.valid.timeLo else if i = 4 then s.valid.timeHi else if i = 5 then s.valid.cbuf
       else if i = 6 then s.valid.hs else if i = 7 then s.valid.otp else if i = 8 then s.valid.code else false)

/-- R80: an access of the window that is not 32-bit, is misaligned or hits an unmapped offset gets an error response
and changes no state of the block; for a program it is a fault. That the model has a host step of each kind is
assumption log 6. -/
def Obligations.BusErrorChangesNoState : Prop :=
  ∀ (s : State) (a : Access) (off : Nat), a.busAddr.windowOffset = some off → s.rst = false →
    a.width ≠ .w32 ∨ off % 4 ≠ 0 ∨ regAt off = none →
    ∃ why, deliver s (.probe a) = .next { s with reply := some (.busError why) } ∧
      deliver s (.access a) = .fault (.busError off why)

/-- R40, R272: no host step and no reset tells two states apart that differ in KEY alone: each is answered alike,
and the states after it again differ in KEY at most. -/
def Obligations.HostStepsNeverRevealTheKey : Prop :=
  ∀ (s : State) (k : Buffer 128) (e : Event), e ≠ .engine →
    (∀ t, deliver s e = .next t → ∃ k', deliver { s with key := k } e = .next { t with key := k' }) ∧
    (∀ f, deliver s e = .fault f → deliver { s with key := k } e = .fault f)

/-- R25: no event but a CLEAR's completion and a reset clears a valid bit, and a blocked write sets none. That the step
taken once the events are used up is an engine's turn is the model's choice (assumption log 2). -/
def Obligations.ValidBitsAreOnlyClearedByClearOrReset : Prop :=
  (∀ (s : State) (r : Reg) (v : Word) (i : Nat),
    (s.valid.toWord.getLsbD i = true → (writeReg s r v).valid.toWord.getLsbD i = true) ∧
    (s.status.busy = true → (writeReg s r v).valid = s.valid)) ∧
  (∀ (s t : State) (i : Nat), step s = .next t → s.valid.toWord.getLsbD i = true →
    t.valid.toWord.getLsbD i = false →
    (s.rst = false ∧ (s.inputs = [] ∨ ∃ rest, s.inputs = .engine :: rest) ∧ s.status.busy = true ∧
      decode s.pending = .ok .clear) ∨ s.rst = true ∨ t.rst = true)

/-! ### Interrupt and acknowledgement -/

/-- R44: the line is IE and DONE at every instant, and 0 after reset. So it rises at a completion exactly when IE is
set, falls at an acceptance and at an acknowledgement, follows IE while DONE stays, and a dropped write leaves it
alone. -/
def Obligations.InterruptLine : Prop :=
  (∀ s : State, s.irq = (s.ctrlIe && s.status.done)) ∧
  (∀ (i : Instr) (s t : State), exec i s = .next t → t.irq = s.ctrlIe) ∧
  (∀ (s : State) (w : Word), s.status.busy = false → (writeReg s .cmd w).irq = false) ∧
  (∀ (s : State) (v : Word), v.getLsbD 1 = true → (writeReg s .status v).irq = false) ∧
  (∀ (s : State) (v : Word), (writeReg s .ctrl v).irq = (v.getLsbD 0 && s.status.done) ∧
    (writeReg s .ctrl v).status.done = s.status.done) ∧
  (∀ (s : State) (r : Reg) (v : Word), s.status.busy = true → blockedWhenBusy r = true →
    (writeReg s r v).irq = s.irq) ∧
  State.reset.irq = false

/-- R269: the host's acknowledgement `WR STATUS, 0x00000002` clears DONE, ERR and ERRCODE together and drops the
line; BUSY, OVR, LASTOP and everything else stay. -/
def Obligations.AcknowledgementClearsTheOutcome : Prop :=
  ∀ s : State, writeReg s .status 0x00000002 =
    { s with status := { s.status with done := false, err := false, errCode := 0 } } ∧
    (writeReg s .status 0x00000002).irq = false

/-! ### Reset -/

/-- R45: the value of every register and of the interrupt line after reset. PENDING, which R45 leaves unspecified,
is not among them. -/
def Obligations.ResetValues : Prop :=
  readReg State.reset .id = 0x4F545031 ∧ readReg State.reset .ctrl = 0x00000000 ∧
  readReg State.reset .status = 0x00000000 ∧ readReg State.reset .config = 0x00000600 ∧
  readReg State.reset .keyLen = 0x00000000 ∧ readReg State.reset .period = 0x0000001E ∧
  readReg State.reset .valid = 0x00000000 ∧
  (∀ r : Reg, r ∈ [Reg.t0Lo, .t0Hi, .timeLo, .timeHi, .ctrLo, .ctrHi, .offset, .otp31, .code, .hsLen, .codeLen] →
    readReg State.reset r = 0) ∧
  (∀ i : Fin 8, State.reset.cbuf[i] = 0x00) ∧ (∀ i : Fin 12, State.reset.digbuf[i] = 0x00) ∧
  (∀ i : Fin 64, State.reset.hs[i] = 0x00) ∧ (∀ i : Fin 128, State.reset.key[i] = 0x00) ∧
  State.reset.irq = false

/-- R300: asserting `rst`, releasing it after an assertion, and any engine's turn in between put every register at
its reset value and abandon a command in flight; only PENDING and the model's own fields are left open here. The two
events and the engine's turn in a reset are the model's (assumption log 9 and 22). -/
def Obligations.ResetEvent : Prop :=
  ∀ (s : State) (rest : List Event),
    (s.inputs = .rst true :: rest →
      ∃ p r, step s = .next { State.reset with rst := true, inputs := rest, pending := p, reply := r }) ∧
    (s.rst = true → s.inputs = .rst false :: rest →
      ∃ p r, step s = .next { State.reset with rst := false, inputs := rest, pending := p, reply := r }) ∧
    (s.rst = true → s.inputs = .engine :: rest →
      ∃ p r, step s = .next { State.reset with rst := true, inputs := rest, pending := p, reply := r })

/-- R301: an access of the window while `rst` is asserted has no step, which the model writes as a named fault
(assumption log 8). -/
def Obligations.AccessDuringResetIsStuck : Prop :=
  ∀ (s : State) (a : Access) (off : Nat), s.rst = true → a.busAddr.windowOffset = some off →
    deliver s (.access a) = .fault (.accessDuringReset off) ∧
    deliver s (.probe a) = .fault (.accessDuringReset off)

/-! ### Headline results -/

/-- The state after reset is sound. -/
def Obligations.ResetIsSound : Prop := State.reset.Inv

/-- Every step keeps a sound state sound: the invariants of STATUS (R23), of the hash, code and OTP registers (R33
to R39, R208), of the registers never written (R25), and of a held reset (R300), in which PENDING and the bus's
answer have the model's own reset values (assumption log 5 and 10). -/
def Obligations.StepKeepsSoundness : Prop := ∀ s t : State, s.Inv → step s = .next t → t.Inv

/-- R239, R84, R312: whatever a host does at the window while a command runs, the command completes, and its outcome
and results are those it would have had without any of it: only CTRL.IE, STATUS.OVR and the bus's answer can show
that the host was there. The accesses come first and the completion after them, as the model's list of events has it
(assumption log 1, 2 and 6). -/
def Obligations.CompletionIsIndependentOfHostSteps : Prop :=
  ∀ (s : State) (accesses : List Access), s.rst = false → s.status.busy = true →
    (∀ a ∈ accesses, ∃ off, a.busAddr.windowOffset = some off) → s.inputs = accesses.map Event.probe →
    ∃ t u, Host.Core.run core (accesses.length + 1) s = .next t ∧ completePending s = .next u ∧
      t.status.busy = false ∧ t.status.done = true ∧
      t = { u with ctrlIe := t.ctrlIe, inputs := [], reply := t.reply
                   status := { u.status with ovr := t.status.ovr } }

/-! ### The words of the window in a general state -/

/-- R21, R22, R26 to R36: what every word but STATUS, VALID, CMD and the buffers reads as, bit by bit, its reserved
bits 0; the integers the commands read from them (00_scope.md R8); and, in a sound state, the ranges that OTP31, CODE,
HSLEN and CODELEN keep. The clause on CODELEN = 0 while CODE_V = 0 is read from its reset value (R36, R45). -/
def Obligations.RegisterWords : Prop :=
  (∀ s : State, readReg s .id = 0x4F545031) ∧
  (∀ (s : State) (i : Nat), i < 32 →
    (readReg s .ctrl).getLsbD i = (if i = 0 then s.ctrlIe else false) ∧
    (readReg s .config).getLsbD i =
      (if i ≤ 7 then s.alg.getLsbD i else if i ≤ 15 then s.digits.getLsbD (i - 8) else false) ∧
    (readReg s .keyLen).getLsbD i = (if i ≤ 15 then s.keyLen.getLsbD i else false) ∧
    (readReg s .offset).getLsbD i = (if i ≤ 3 then s.offset.getLsbD i else false) ∧
    (readReg s .otp31).getLsbD i = s.otp31.getLsbD i ∧
    (readReg s .code).getLsbD i = s.code.getLsbD i ∧
    (readReg s .hsLen).getLsbD i = (if i ≤ 7 then s.hsLen.getLsbD i else false) ∧
    (readReg s .codeLen).getLsbD i = (if i ≤ 7 then s.codeLen.getLsbD i else false)) ∧
  (∀ s : State,
    s.periodSeconds = (readReg s .period).toInt ∧
    s.t0 = (readReg s .t0Hi ++ readReg s .t0Lo).toInt ∧
    s.time = (readReg s .timeHi ++ readReg s .timeLo).toInt ∧
    s.counter = (readReg s .ctrHi ++ readReg s .ctrLo).toNat) ∧
  (∀ s : State, s.Inv →
    (readReg s .otp31).getLsbD 31 = false ∧ (readReg s .code).getLsbD 31 = false ∧
    (s.valid.hs = true → readReg s .hsLen = 20 ∨ readReg s .hsLen = 32 ∨ readReg s .hsLen = 64) ∧
    (s.valid.hs = false → readReg s .hsLen = 0) ∧
    (s.valid.code = true → 1 ≤ (readReg s .codeLen).toNat ∧ (readReg s .codeLen).toNat ≤ 10) ∧
    (s.valid.code = false → readReg s .codeLen = 0))
end

