-- ==== Sys2Proof/Laws/Bytes.lean ====
section
/-! SUPPORT. Byte strings, buffers, their words and their blocks: what the byte-order operations give (00_scope.md R8,
20_memory.md R75), and what splitting a string gives (41_hmac.md R145). -/

namespace Sys2Proof.Machine

@[simp] theorem beBytes_length (n v : Nat) : (beBytes n v).length = n := by simp [beBytes]

theorem beBytes_getElem (n v i : Nat) (h : i < (beBytes n v).length) :
    (beBytes n v)[i] = BitVec.ofNat 8 (v >>> (8 * (n - 1 - i))) := by
  simp [beBytes]

theorem beBytes_getD (n v i : Nat) (h : i < n) (d : Byte) :
    (beBytes n v).getD i d = BitVec.ofNat 8 (v >>> (8 * (n - 1 - i))) := by
  have h' : i < (beBytes n v).length := by simpa using h
  rw [List.getD_eq_getElem _ _ h', beBytes_getElem]

/-- Dropping the lowest byte of a value drops the last byte of its encoding. -/
theorem beBytes_succ (n v : Nat) : beBytes (n + 1) v = beBytes n (v / 256) ++ [BitVec.ofNat 8 v] := by
  have hmap : ∀ i ∈ List.range n,
      BitVec.ofNat 8 (v >>> (8 * (n - i))) = BitVec.ofNat 8 ((v / 256) >>> (8 * (n - 1 - i))) := by
    intro i hi
    have hi : i < n := List.mem_range.mp hi
    have h8 : 8 * (n - i) = 8 + 8 * (n - 1 - i) := by omega
    rw [h8, Nat.shiftRight_add, Nat.shiftRight_eq_div_pow v 8]
  simp only [beBytes, List.range_succ, List.map_append, List.map_cons, List.map_nil, Nat.add_sub_cancel,
    Nat.sub_self, Nat.mul_zero, Nat.shiftRight_zero]
  rw [List.map_congr_left hmap]

@[simp] theorem beInt_nil : beInt [] = 0 := rfl

@[simp] theorem beInt_concat (l : List Byte) (b : Byte) : beInt (l ++ [b]) = beInt l * 256 + b.toNat := by
  simp [beInt]

theorem beInt_lt (l : List Byte) : beInt l < 256 ^ l.length := by
  induction l using List.reverseRecOn with
  | nil => simp
  | append_singleton l b ih =>
    have hb := b.isLt
    simp only [beInt_concat, List.length_append, List.length_singleton, pow_succ]
    omega

/-- `be_int` undoes `be_bytes_n` on every value that fits n bytes (R8). -/
theorem beInt_beBytes (n v : Nat) (h : v < 256 ^ n) : beInt (beBytes n v) = v := by
  induction n generalizing v with
  | zero => simp at h; simp [h, beBytes]
  | succ n ih =>
    have hv : v / 256 < 256 ^ n := by
      rw [pow_succ] at h
      exact Nat.div_lt_of_lt_mul (by omega)
    rw [beBytes_succ, beInt_concat, ih _ hv, BitVec.toNat_ofNat]
    omega

@[simp] theorem bufferOf_getElem (n : Nat) (l : List Byte) (i : Nat) (h : i < n) :
    (bufferOf n l)[i] = l.getD i 0 := by
  simp [bufferOf]

@[simp] theorem zeroBuffer_getElem (n i : Nat) (h : i < n) : (zeroBuffer n)[i] = 0 := by
  simp [zeroBuffer]

@[simp] theorem bufferByte_eq {n : Nat} (b : Buffer n) (i : Nat) (h : i < n) : bufferByte b i = b[i] := by
  simp [bufferByte, List.getD_eq_getElem?_getD, h]

/-- A buffer holds the string it was made from, when the string has the buffer's length. -/
theorem bufferOf_toList (n : Nat) (l : List Byte) (h : l.length = n) : (bufferOf n l).toList = l := by
  apply List.ext_getElem
  · simp [h]
  · intro i h1 h2
    simp [List.getD_eq_getElem?_getD, h2]

/-- The first bytes of a buffer are the string it was made from. -/
theorem bufferOf_take (n : Nat) (l : List Byte) (h : l.length ≤ n) : (bufferOf n l).toList.take l.length = l := by
  apply List.ext_getElem
  · simp [h]
  · intro i h1 h2
    simp [List.getD_eq_getElem?_getD, h2]

@[simp] theorem bufferSetWord_getElem {n : Nat} (b : Buffer n) (k : Nat) (v : Word) (i : Nat) (h : i < n) :
    (bufferSetWord b k v)[i] = if i / 4 = k then (beBytes 4 v.toNat).getD (i % 4) 0 else b[i] := by
  simp [bufferSetWord]

@[simp] theorem pieces_length (k : Nat) (m : List Byte) : (pieces k m).length = m.length / k := by simp [pieces]

theorem pieces_getElem? (k : Nat) (m : List Byte) (j : Nat) (h : j < m.length / k) :
    (pieces k m)[j]? = some ((m.drop (j * k)).take k) := by
  simp [pieces, h]

/-- Every piece has the length asked for. -/
theorem length_of_mem_pieces {k : Nat} {m piece : List Byte} (h : piece ∈ pieces k m) : piece.length = k := by
  simp only [pieces, List.mem_map, List.mem_range] at h
  obtain ⟨i, hi, rfl⟩ := h
  have hle : (i + 1) * k ≤ m.length := (Nat.mul_le_mul_right k hi).trans (Nat.div_mul_le_self _ _)
  rw [Nat.add_mul] at hle
  simp only [List.length_take, List.length_drop]
  omega

/-- The pieces up to the i-th, one after another, are the string up to there. -/
theorem flatten_pieces_prefix (k : Nat) (m : List Byte) (i : Nat) :
    ((List.range i).map fun j => (m.drop (j * k)).take k).flatten = m.take (i * k) := by
  induction i with
  | zero => simp
  | succ i ih =>
    rw [List.range_succ, List.map_append, List.flatten_append, ih, Nat.add_mul, Nat.one_mul, List.take_add]
    simp

/-- A string of whole pieces is its pieces one after another. -/
theorem pieces_flatten (k : Nat) (m : List Byte) (h : m.length % k = 0) : (pieces k m).flatten = m := by
  rw [pieces, flatten_pieces_prefix, Nat.div_mul_cancel (Nat.dvd_of_mod_eq_zero h), List.take_length]

end Sys2Proof.Machine
end

