-- ==== Sys2Proof/Laws/PerInstr.lean ====
section
/-! SUPPORT. The statements made per command: the shape of its command word (30_encoding.md R100, R101, R103). -/

namespace Sys2Proof.Laws.WordShape

/-- The command word is legal, with RSVD zero and the command's own OPCODE in the low byte, and no operand field
beside them. -/
def Statement (i : Instr) : Prop :=
  i.wellFormed = true ∧ CommandWord.wellFormed (encode i) = true ∧ rsvdField (encode i) = 0 ∧
  opcodeField (encode i) = encodeOpcode i ∧ decodeOpcode (encodeOpcode i) = some i ∧ (encode i).toNat < 0x10

theorem nop : Statement .nop := by unfold Statement; decide
theorem ser : Statement .ser := by unfold Statement; decide
theorem tstep : Statement .tstep := by unfold Statement; decide
theorem hmac : Statement .hmac := by unfold Statement; decide
theorem trunc : Statement .trunc := by unfold Statement; decide
theorem reduce : Statement .reduce := by unfold Statement; decide
theorem hotp : Statement .hotp := by unfold Statement; decide
theorem totp : Statement .totp := by unfold Statement; decide
theorem clear : Statement .clear := by unfold Statement; decide

end Sys2Proof.Laws.WordShape
end

