-- ==== Sys2Proof/Laws/State.lean ====
section
/-! SUPPORT. What each shared update of the state leaves in each field: one lemma per field per update, so that no
later proof unfolds a record update. -/

namespace Sys2Proof.Machine

variable (s : State)

/-! ### setStatus -/

@[simp] theorem State.setStatus_ctrlIe (st : Status) : (s.setStatus st).ctrlIe = s.ctrlIe := rfl
@[simp] theorem State.setStatus_status (st : Status) : (s.setStatus st).status = st := rfl
@[simp] theorem State.setStatus_alg (st : Status) : (s.setStatus st).alg = s.alg := rfl
@[simp] theorem State.setStatus_digits (st : Status) : (s.setStatus st).digits = s.digits := rfl
@[simp] theorem State.setStatus_keyLen (st : Status) : (s.setStatus st).keyLen = s.keyLen := rfl
@[simp] theorem State.setStatus_period (st : Status) : (s.setStatus st).period = s.period := rfl
@[simp] theorem State.setStatus_valid (st : Status) : (s.setStatus st).valid = s.valid := rfl
@[simp] theorem State.setStatus_t0Lo (st : Status) : (s.setStatus st).t0Lo = s.t0Lo := rfl
@[simp] theorem State.setStatus_t0Hi (st : Status) : (s.setStatus st).t0Hi = s.t0Hi := rfl
@[simp] theorem State.setStatus_timeLo (st : Status) : (s.setStatus st).timeLo = s.timeLo := rfl
@[simp] theorem State.setStatus_timeHi (st : Status) : (s.setStatus st).timeHi = s.timeHi := rfl
@[simp] theorem State.setStatus_ctrLo (st : Status) : (s.setStatus st).ctrLo = s.ctrLo := rfl
@[simp] theorem State.setStatus_ctrHi (st : Status) : (s.setStatus st).ctrHi = s.ctrHi := rfl
@[simp] theorem State.setStatus_offset (st : Status) : (s.setStatus st).offset = s.offset := rfl
@[simp] theorem State.setStatus_otp31 (st : Status) : (s.setStatus st).otp31 = s.otp31 := rfl
@[simp] theorem State.setStatus_code (st : Status) : (s.setStatus st).code = s.code := rfl
@[simp] theorem State.setStatus_hsLen (st : Status) : (s.setStatus st).hsLen = s.hsLen := rfl
@[simp] theorem State.setStatus_codeLen (st : Status) : (s.setStatus st).codeLen = s.codeLen := rfl
@[simp] theorem State.setStatus_cbuf (st : Status) : (s.setStatus st).cbuf = s.cbuf := rfl
@[simp] theorem State.setStatus_digbuf (st : Status) : (s.setStatus st).digbuf = s.digbuf := rfl
@[simp] theorem State.setStatus_hs (st : Status) : (s.setStatus st).hs = s.hs := rfl
@[simp] theorem State.setStatus_key (st : Status) : (s.setStatus st).key = s.key := rfl
@[simp] theorem State.setStatus_pending (st : Status) : (s.setStatus st).pending = s.pending := rfl
@[simp] theorem State.setStatus_rst (st : Status) : (s.setStatus st).rst = s.rst := rfl
@[simp] theorem State.setStatus_inputs (st : Status) : (s.setStatus st).inputs = s.inputs := rfl
@[simp] theorem State.setStatus_reply (st : Status) : (s.setStatus st).reply = s.reply := rfl

/-! ### setInputs -/

@[simp] theorem State.setInputs_ctrlIe (es : List Event) : (s.setInputs es).ctrlIe = s.ctrlIe := rfl
@[simp] theorem State.setInputs_status (es : List Event) : (s.setInputs es).status = s.status := rfl
@[simp] theorem State.setInputs_alg (es : List Event) : (s.setInputs es).alg = s.alg := rfl
@[simp] theorem State.setInputs_digits (es : List Event) : (s.setInputs es).digits = s.digits := rfl
@[simp] theorem State.setInputs_keyLen (es : List Event) : (s.setInputs es).keyLen = s.keyLen := rfl
@[simp] theorem State.setInputs_period (es : List Event) : (s.setInputs es).period = s.period := rfl
@[simp] theorem State.setInputs_valid (es : List Event) : (s.setInputs es).valid = s.valid := rfl
@[simp] theorem State.setInputs_t0Lo (es : List Event) : (s.setInputs es).t0Lo = s.t0Lo := rfl
@[simp] theorem State.setInputs_t0Hi (es : List Event) : (s.setInputs es).t0Hi = s.t0Hi := rfl
@[simp] theorem State.setInputs_timeLo (es : List Event) : (s.setInputs es).timeLo = s.timeLo := rfl
@[simp] theorem State.setInputs_timeHi (es : List Event) : (s.setInputs es).timeHi = s.timeHi := rfl
@[simp] theorem State.setInputs_ctrLo (es : List Event) : (s.setInputs es).ctrLo = s.ctrLo := rfl
@[simp] theorem State.setInputs_ctrHi (es : List Event) : (s.setInputs es).ctrHi = s.ctrHi := rfl
@[simp] theorem State.setInputs_offset (es : List Event) : (s.setInputs es).offset = s.offset := rfl
@[simp] theorem State.setInputs_otp31 (es : List Event) : (s.setInputs es).otp31 = s.otp31 := rfl
@[simp] theorem State.setInputs_code (es : List Event) : (s.setInputs es).code = s.code := rfl
@[simp] theorem State.setInputs_hsLen (es : List Event) : (s.setInputs es).hsLen = s.hsLen := rfl
@[simp] theorem State.setInputs_codeLen (es : List Event) : (s.setInputs es).codeLen = s.codeLen := rfl
@[simp] theorem State.setInputs_cbuf (es : List Event) : (s.setInputs es).cbuf = s.cbuf := rfl
@[simp] theorem State.setInputs_digbuf (es : List Event) : (s.setInputs es).digbuf = s.digbuf := rfl
@[simp] theorem State.setInputs_hs (es : List Event) : (s.setInputs es).hs = s.hs := rfl
@[simp] theorem State.setInputs_key (es : List Event) : (s.setInputs es).key = s.key := rfl
@[simp] theorem State.setInputs_pending (es : List Event) : (s.setInputs es).pending = s.pending := rfl
@[simp] theorem State.setInputs_rst (es : List Event) : (s.setInputs es).rst = s.rst := rfl
@[simp] theorem State.setInputs_inputs (es : List Event) : (s.setInputs es).inputs = es := rfl
@[simp] theorem State.setInputs_reply (es : List Event) : (s.setInputs es).reply = s.reply := rfl

/-! ### setReply -/

@[simp] theorem State.setReply_ctrlIe (r : BusReply) : (s.setReply r).ctrlIe = s.ctrlIe := rfl
@[simp] theorem State.setReply_status (r : BusReply) : (s.setReply r).status = s.status := rfl
@[simp] theorem State.setReply_alg (r : BusReply) : (s.setReply r).alg = s.alg := rfl
@[simp] theorem State.setReply_digits (r : BusReply) : (s.setReply r).digits = s.digits := rfl
@[simp] theorem State.setReply_keyLen (r : BusReply) : (s.setReply r).keyLen = s.keyLen := rfl
@[simp] theorem State.setReply_period (r : BusReply) : (s.setReply r).period = s.period := rfl
@[simp] theorem State.setReply_valid (r : BusReply) : (s.setReply r).valid = s.valid := rfl
@[simp] theorem State.setReply_t0Lo (r : BusReply) : (s.setReply r).t0Lo = s.t0Lo := rfl
@[simp] theorem State.setReply_t0Hi (r : BusReply) : (s.setReply r).t0Hi = s.t0Hi := rfl
@[simp] theorem State.setReply_timeLo (r : BusReply) : (s.setReply r).timeLo = s.timeLo := rfl
@[simp] theorem State.setReply_timeHi (r : BusReply) : (s.setReply r).timeHi = s.timeHi := rfl
@[simp] theorem State.setReply_ctrLo (r : BusReply) : (s.setReply r).ctrLo = s.ctrLo := rfl
@[simp] theorem State.setReply_ctrHi (r : BusReply) : (s.setReply r).ctrHi = s.ctrHi := rfl
@[simp] theorem State.setReply_offset (r : BusReply) : (s.setReply r).offset = s.offset := rfl
@[simp] theorem State.setReply_otp31 (r : BusReply) : (s.setReply r).otp31 = s.otp31 := rfl
@[simp] theorem State.setReply_code (r : BusReply) : (s.setReply r).code = s.code := rfl
@[simp] theorem State.setReply_hsLen (r : BusReply) : (s.setReply r).hsLen = s.hsLen := rfl
@[simp] theorem State.setReply_codeLen (r : BusReply) : (s.setReply r).codeLen = s.codeLen := rfl
@[simp] theorem State.setReply_cbuf (r : BusReply) : (s.setReply r).cbuf = s.cbuf := rfl
@[simp] theorem State.setReply_digbuf (r : BusReply) : (s.setReply r).digbuf = s.digbuf := rfl
@[simp] theorem State.setReply_hs (r : BusReply) : (s.setReply r).hs = s.hs := rfl
@[simp] theorem State.setReply_key (r : BusReply) : (s.setReply r).key = s.key := rfl
@[simp] theorem State.setReply_pending (r : BusReply) : (s.setReply r).pending = s.pending := rfl
@[simp] theorem State.setReply_rst (r : BusReply) : (s.setReply r).rst = s.rst := rfl
@[simp] theorem State.setReply_inputs (r : BusReply) : (s.setReply r).inputs = s.inputs := rfl
@[simp] theorem State.setReply_reply (r : BusReply) : (s.setReply r).reply = some r := rfl

/-! ### commitCounter -/

@[simp] theorem State.commitCounter_ctrlIe (c : Nat) : (s.commitCounter c).ctrlIe = s.ctrlIe := rfl
@[simp] theorem State.commitCounter_status (c : Nat) : (s.commitCounter c).status = s.status := rfl
@[simp] theorem State.commitCounter_alg (c : Nat) : (s.commitCounter c).alg = s.alg := rfl
@[simp] theorem State.commitCounter_digits (c : Nat) : (s.commitCounter c).digits = s.digits := rfl
@[simp] theorem State.commitCounter_keyLen (c : Nat) : (s.commitCounter c).keyLen = s.keyLen := rfl
@[simp] theorem State.commitCounter_period (c : Nat) : (s.commitCounter c).period = s.period := rfl
@[simp] theorem State.commitCounter_valid (c : Nat) : (s.commitCounter c).valid = { s.valid with ctrLo := true, ctrHi := true } := rfl
@[simp] theorem State.commitCounter_t0Lo (c : Nat) : (s.commitCounter c).t0Lo = s.t0Lo := rfl
@[simp] theorem State.commitCounter_t0Hi (c : Nat) : (s.commitCounter c).t0Hi = s.t0Hi := rfl
@[simp] theorem State.commitCounter_timeLo (c : Nat) : (s.commitCounter c).timeLo = s.timeLo := rfl
@[simp] theorem State.commitCounter_timeHi (c : Nat) : (s.commitCounter c).timeHi = s.timeHi := rfl
@[simp] theorem State.commitCounter_ctrLo (c : Nat) : (s.commitCounter c).ctrLo = BitVec.ofNat 32 c := rfl
@[simp] theorem State.commitCounter_ctrHi (c : Nat) : (s.commitCounter c).ctrHi = BitVec.ofNat 32 (c >>> 32) := rfl
@[simp] theorem State.commitCounter_offset (c : Nat) : (s.commitCounter c).offset = s.offset := rfl
@[simp] theorem State.commitCounter_otp31 (c : Nat) : (s.commitCounter c).otp31 = s.otp31 := rfl
@[simp] theorem State.commitCounter_code (c : Nat) : (s.commitCounter c).code = s.code := rfl
@[simp] theorem State.commitCounter_hsLen (c : Nat) : (s.commitCounter c).hsLen = s.hsLen := rfl
@[simp] theorem State.commitCounter_codeLen (c : Nat) : (s.commitCounter c).codeLen = s.codeLen := rfl
@[simp] theorem State.commitCounter_cbuf (c : Nat) : (s.commitCounter c).cbuf = s.cbuf := rfl
@[simp] theorem State.commitCounter_digbuf (c : Nat) : (s.commitCounter c).digbuf = s.digbuf := rfl
@[simp] theorem State.commitCounter_hs (c : Nat) : (s.commitCounter c).hs = s.hs := rfl
@[simp] theorem State.commitCounter_key (c : Nat) : (s.commitCounter c).key = s.key := rfl
@[simp] theorem State.commitCounter_pending (c : Nat) : (s.commitCounter c).pending = s.pending := rfl
@[simp] theorem State.commitCounter_rst (c : Nat) : (s.commitCounter c).rst = s.rst := rfl
@[simp] theorem State.commitCounter_inputs (c : Nat) : (s.commitCounter c).inputs = s.inputs := rfl
@[simp] theorem State.commitCounter_reply (c : Nat) : (s.commitCounter c).reply = s.reply := rfl

/-! ### commitCbuf -/

@[simp] theorem State.commitCbuf_ctrlIe (b : List Byte) : (s.commitCbuf b).ctrlIe = s.ctrlIe := rfl
@[simp] theorem State.commitCbuf_status (b : List Byte) : (s.commitCbuf b).status = s.status := rfl
@[simp] theorem State.commitCbuf_alg (b : List Byte) : (s.commitCbuf b).alg = s.alg := rfl
@[simp] theorem State.commitCbuf_digits (b : List Byte) : (s.commitCbuf b).digits = s.digits := rfl
@[simp] theorem State.commitCbuf_keyLen (b : List Byte) : (s.commitCbuf b).keyLen = s.keyLen := rfl
@[simp] theorem State.commitCbuf_period (b : List Byte) : (s.commitCbuf b).period = s.period := rfl
@[simp] theorem State.commitCbuf_valid (b : List Byte) : (s.commitCbuf b).valid = { s.valid with cbuf := true } := rfl
@[simp] theorem State.commitCbuf_t0Lo (b : List Byte) : (s.commitCbuf b).t0Lo = s.t0Lo := rfl
@[simp] theorem State.commitCbuf_t0Hi (b : List Byte) : (s.commitCbuf b).t0Hi = s.t0Hi := rfl
@[simp] theorem State.commitCbuf_timeLo (b : List Byte) : (s.commitCbuf b).timeLo = s.timeLo := rfl
@[simp] theorem State.commitCbuf_timeHi (b : List Byte) : (s.commitCbuf b).timeHi = s.timeHi := rfl
@[simp] theorem State.commitCbuf_ctrLo (b : List Byte) : (s.commitCbuf b).ctrLo = s.ctrLo := rfl
@[simp] theorem State.commitCbuf_ctrHi (b : List Byte) : (s.commitCbuf b).ctrHi = s.ctrHi := rfl
@[simp] theorem State.commitCbuf_offset (b : List Byte) : (s.commitCbuf b).offset = s.offset := rfl
@[simp] theorem State.commitCbuf_otp31 (b : List Byte) : (s.commitCbuf b).otp31 = s.otp31 := rfl
@[simp] theorem State.commitCbuf_code (b : List Byte) : (s.commitCbuf b).code = s.code := rfl
@[simp] theorem State.commitCbuf_hsLen (b : List Byte) : (s.commitCbuf b).hsLen = s.hsLen := rfl
@[simp] theorem State.commitCbuf_codeLen (b : List Byte) : (s.commitCbuf b).codeLen = s.codeLen := rfl
@[simp] theorem State.commitCbuf_cbuf (b : List Byte) : (s.commitCbuf b).cbuf = bufferOf 8 b := rfl
@[simp] theorem State.commitCbuf_digbuf (b : List Byte) : (s.commitCbuf b).digbuf = s.digbuf := rfl
@[simp] theorem State.commitCbuf_hs (b : List Byte) : (s.commitCbuf b).hs = s.hs := rfl
@[simp] theorem State.commitCbuf_key (b : List Byte) : (s.commitCbuf b).key = s.key := rfl
@[simp] theorem State.commitCbuf_pending (b : List Byte) : (s.commitCbuf b).pending = s.pending := rfl
@[simp] theorem State.commitCbuf_rst (b : List Byte) : (s.commitCbuf b).rst = s.rst := rfl
@[simp] theorem State.commitCbuf_inputs (b : List Byte) : (s.commitCbuf b).inputs = s.inputs := rfl
@[simp] theorem State.commitCbuf_reply (b : List Byte) : (s.commitCbuf b).reply = s.reply := rfl

/-! ### commitHs -/

@[simp] theorem State.commitHs_ctrlIe (h : List Byte) : (s.commitHs h).ctrlIe = s.ctrlIe := rfl
@[simp] theorem State.commitHs_status (h : List Byte) : (s.commitHs h).status = s.status := rfl
@[simp] theorem State.commitHs_alg (h : List Byte) : (s.commitHs h).alg = s.alg := rfl
@[simp] theorem State.commitHs_digits (h : List Byte) : (s.commitHs h).digits = s.digits := rfl
@[simp] theorem State.commitHs_keyLen (h : List Byte) : (s.commitHs h).keyLen = s.keyLen := rfl
@[simp] theorem State.commitHs_period (h : List Byte) : (s.commitHs h).period = s.period := rfl
@[simp] theorem State.commitHs_valid (h : List Byte) : (s.commitHs h).valid = { s.valid with hs := true } := rfl
@[simp] theorem State.commitHs_t0Lo (h : List Byte) : (s.commitHs h).t0Lo = s.t0Lo := rfl
@[simp] theorem State.commitHs_t0Hi (h : List Byte) : (s.commitHs h).t0Hi = s.t0Hi := rfl
@[simp] theorem State.commitHs_timeLo (h : List Byte) : (s.commitHs h).timeLo = s.timeLo := rfl
@[simp] theorem State.commitHs_timeHi (h : List Byte) : (s.commitHs h).timeHi = s.timeHi := rfl
@[simp] theorem State.commitHs_ctrLo (h : List Byte) : (s.commitHs h).ctrLo = s.ctrLo := rfl
@[simp] theorem State.commitHs_ctrHi (h : List Byte) : (s.commitHs h).ctrHi = s.ctrHi := rfl
@[simp] theorem State.commitHs_offset (h : List Byte) : (s.commitHs h).offset = s.offset := rfl
@[simp] theorem State.commitHs_otp31 (h : List Byte) : (s.commitHs h).otp31 = s.otp31 := rfl
@[simp] theorem State.commitHs_code (h : List Byte) : (s.commitHs h).code = s.code := rfl
@[simp] theorem State.commitHs_hsLen (h : List Byte) : (s.commitHs h).hsLen = BitVec.ofNat 8 h.length := rfl
@[simp] theorem State.commitHs_codeLen (h : List Byte) : (s.commitHs h).codeLen = s.codeLen := rfl
@[simp] theorem State.commitHs_cbuf (h : List Byte) : (s.commitHs h).cbuf = s.cbuf := rfl
@[simp] theorem State.commitHs_digbuf (h : List Byte) : (s.commitHs h).digbuf = s.digbuf := rfl
@[simp] theorem State.commitHs_hs (h : List Byte) : (s.commitHs h).hs = bufferOf 64 h := rfl
@[simp] theorem State.commitHs_key (h : List Byte) : (s.commitHs h).key = s.key := rfl
@[simp] theorem State.commitHs_pending (h : List Byte) : (s.commitHs h).pending = s.pending := rfl
@[simp] theorem State.commitHs_rst (h : List Byte) : (s.commitHs h).rst = s.rst := rfl
@[simp] theorem State.commitHs_inputs (h : List Byte) : (s.commitHs h).inputs = s.inputs := rfl
@[simp] theorem State.commitHs_reply (h : List Byte) : (s.commitHs h).reply = s.reply := rfl

/-! ### commitOtp -/

@[simp] theorem State.commitOtp_ctrlIe (o : BitVec 4) (x : Word) : (s.commitOtp o x).ctrlIe = s.ctrlIe := rfl
@[simp] theorem State.commitOtp_status (o : BitVec 4) (x : Word) : (s.commitOtp o x).status = s.status := rfl
@[simp] theorem State.commitOtp_alg (o : BitVec 4) (x : Word) : (s.commitOtp o x).alg = s.alg := rfl
@[simp] theorem State.commitOtp_digits (o : BitVec 4) (x : Word) : (s.commitOtp o x).digits = s.digits := rfl
@[simp] theorem State.commitOtp_keyLen (o : BitVec 4) (x : Word) : (s.commitOtp o x).keyLen = s.keyLen := rfl
@[simp] theorem State.commitOtp_period (o : BitVec 4) (x : Word) : (s.commitOtp o x).period = s.period := rfl
@[simp] theorem State.commitOtp_valid (o : BitVec 4) (x : Word) : (s.commitOtp o x).valid = { s.valid with otp := true } := rfl
@[simp] theorem State.commitOtp_t0Lo (o : BitVec 4) (x : Word) : (s.commitOtp o x).t0Lo = s.t0Lo := rfl
@[simp] theorem State.commitOtp_t0Hi (o : BitVec 4) (x : Word) : (s.commitOtp o x).t0Hi = s.t0Hi := rfl
@[simp] theorem State.commitOtp_timeLo (o : BitVec 4) (x : Word) : (s.commitOtp o x).timeLo = s.timeLo := rfl
@[simp] theorem State.commitOtp_timeHi (o : BitVec 4) (x : Word) : (s.commitOtp o x).timeHi = s.timeHi := rfl
@[simp] theorem State.commitOtp_ctrLo (o : BitVec 4) (x : Word) : (s.commitOtp o x).ctrLo = s.ctrLo := rfl
@[simp] theorem State.commitOtp_ctrHi (o : BitVec 4) (x : Word) : (s.commitOtp o x).ctrHi = s.ctrHi := rfl
@[simp] theorem State.commitOtp_offset (o : BitVec 4) (x : Word) : (s.commitOtp o x).offset = o := rfl
@[simp] theorem State.commitOtp_otp31 (o : BitVec 4) (x : Word) : (s.commitOtp o x).otp31 = x := rfl
@[simp] theorem State.commitOtp_code (o : BitVec 4) (x : Word) : (s.commitOtp o x).code = s.code := rfl
@[simp] theorem State.commitOtp_hsLen (o : BitVec 4) (x : Word) : (s.commitOtp o x).hsLen = s.hsLen := rfl
@[simp] theorem State.commitOtp_codeLen (o : BitVec 4) (x : Word) : (s.commitOtp o x).codeLen = s.codeLen := rfl
@[simp] theorem State.commitOtp_cbuf (o : BitVec 4) (x : Word) : (s.commitOtp o x).cbuf = s.cbuf := rfl
@[simp] theorem State.commitOtp_digbuf (o : BitVec 4) (x : Word) : (s.commitOtp o x).digbuf = s.digbuf := rfl
@[simp] theorem State.commitOtp_hs (o : BitVec 4) (x : Word) : (s.commitOtp o x).hs = s.hs := rfl
@[simp] theorem State.commitOtp_key (o : BitVec 4) (x : Word) : (s.commitOtp o x).key = s.key := rfl
@[simp] theorem State.commitOtp_pending (o : BitVec 4) (x : Word) : (s.commitOtp o x).pending = s.pending := rfl
@[simp] theorem State.commitOtp_rst (o : BitVec 4) (x : Word) : (s.commitOtp o x).rst = s.rst := rfl
@[simp] theorem State.commitOtp_inputs (o : BitVec 4) (x : Word) : (s.commitOtp o x).inputs = s.inputs := rfl
@[simp] theorem State.commitOtp_reply (o : BitVec 4) (x : Word) : (s.commitOtp o x).reply = s.reply := rfl

/-! ### commitCode -/

@[simp] theorem State.commitCode_ctrlIe (c d : Nat) (txt : List Byte) : (s.commitCode c d txt).ctrlIe = s.ctrlIe := rfl
@[simp] theorem State.commitCode_status (c d : Nat) (txt : List Byte) : (s.commitCode c d txt).status = s.status := rfl
@[simp] theorem State.commitCode_alg (c d : Nat) (txt : List Byte) : (s.commitCode c d txt).alg = s.alg := rfl
@[simp] theorem State.commitCode_digits (c d : Nat) (txt : List Byte) : (s.commitCode c d txt).digits = s.digits := rfl
@[simp] theorem State.commitCode_keyLen (c d : Nat) (txt : List Byte) : (s.commitCode c d txt).keyLen = s.keyLen := rfl
@[simp] theorem State.commitCode_period (c d : Nat) (txt : List Byte) : (s.commitCode c d txt).period = s.period := rfl
@[simp] theorem State.commitCode_valid (c d : Nat) (txt : List Byte) : (s.commitCode c d txt).valid = { s.valid with code := true } := rfl
@[simp] theorem State.commitCode_t0Lo (c d : Nat) (txt : List Byte) : (s.commitCode c d txt).t0Lo = s.t0Lo := rfl
@[simp] theorem State.commitCode_t0Hi (c d : Nat) (txt : List Byte) : (s.commitCode c d txt).t0Hi = s.t0Hi := rfl
@[simp] theorem State.commitCode_timeLo (c d : Nat) (txt : List Byte) : (s.commitCode c d txt).timeLo = s.timeLo := rfl
@[simp] theorem State.commitCode_timeHi (c d : Nat) (txt : List Byte) : (s.commitCode c d txt).timeHi = s.timeHi := rfl
@[simp] theorem State.commitCode_ctrLo (c d : Nat) (txt : List Byte) : (s.commitCode c d txt).ctrLo = s.ctrLo := rfl
@[simp] theorem State.commitCode_ctrHi (c d : Nat) (txt : List Byte) : (s.commitCode c d txt).ctrHi = s.ctrHi := rfl
@[simp] theorem State.commitCode_offset (c d : Nat) (txt : List Byte) : (s.commitCode c d txt).offset = s.offset := rfl
@[simp] theorem State.commitCode_otp31 (c d : Nat) (txt : List Byte) : (s.commitCode c d txt).otp31 = s.otp31 := rfl
@[simp] theorem State.commitCode_code (c d : Nat) (txt : List Byte) : (s.commitCode c d txt).code = BitVec.ofNat 32 c := rfl
@[simp] theorem State.commitCode_hsLen (c d : Nat) (txt : List Byte) : (s.commitCode c d txt).hsLen = s.hsLen := rfl
@[simp] theorem State.commitCode_codeLen (c d : Nat) (txt : List Byte) : (s.commitCode c d txt).codeLen = BitVec.ofNat 8 d := rfl
@[simp] theorem State.commitCode_cbuf (c d : Nat) (txt : List Byte) : (s.commitCode c d txt).cbuf = s.cbuf := rfl
@[simp] theorem State.commitCode_digbuf (c d : Nat) (txt : List Byte) : (s.commitCode c d txt).digbuf = bufferOf 12 txt := rfl
@[simp] theorem State.commitCode_hs (c d : Nat) (txt : List Byte) : (s.commitCode c d txt).hs = s.hs := rfl
@[simp] theorem State.commitCode_key (c d : Nat) (txt : List Byte) : (s.commitCode c d txt).key = s.key := rfl
@[simp] theorem State.commitCode_pending (c d : Nat) (txt : List Byte) : (s.commitCode c d txt).pending = s.pending := rfl
@[simp] theorem State.commitCode_rst (c d : Nat) (txt : List Byte) : (s.commitCode c d txt).rst = s.rst := rfl
@[simp] theorem State.commitCode_inputs (c d : Nat) (txt : List Byte) : (s.commitCode c d txt).inputs = s.inputs := rfl
@[simp] theorem State.commitCode_reply (c d : Nat) (txt : List Byte) : (s.commitCode c d txt).reply = s.reply := rfl

/-! ### zeroize -/

@[simp] theorem State.zeroize_ctrlIe : s.zeroize.ctrlIe = s.ctrlIe := rfl
@[simp] theorem State.zeroize_status : s.zeroize.status = s.status := rfl
@[simp] theorem State.zeroize_alg : s.zeroize.alg = s.alg := rfl
@[simp] theorem State.zeroize_digits : s.zeroize.digits = s.digits := rfl
@[simp] theorem State.zeroize_keyLen : s.zeroize.keyLen = 0 := rfl
@[simp] theorem State.zeroize_period : s.zeroize.period = s.period := rfl
@[simp] theorem State.zeroize_valid : s.zeroize.valid = Valid.none := rfl
@[simp] theorem State.zeroize_t0Lo : s.zeroize.t0Lo = s.t0Lo := rfl
@[simp] theorem State.zeroize_t0Hi : s.zeroize.t0Hi = s.t0Hi := rfl
@[simp] theorem State.zeroize_timeLo : s.zeroize.timeLo = 0 := rfl
@[simp] theorem State.zeroize_timeHi : s.zeroize.timeHi = 0 := rfl
@[simp] theorem State.zeroize_ctrLo : s.zeroize.ctrLo = 0 := rfl
@[simp] theorem State.zeroize_ctrHi : s.zeroize.ctrHi = 0 := rfl
@[simp] theorem State.zeroize_offset : s.zeroize.offset = 0 := rfl
@[simp] theorem State.zeroize_otp31 : s.zeroize.otp31 = 0 := rfl
@[simp] theorem State.zeroize_code : s.zeroize.code = 0 := rfl
@[simp] theorem State.zeroize_hsLen : s.zeroize.hsLen = 0 := rfl
@[simp] theorem State.zeroize_codeLen : s.zeroize.codeLen = 0 := rfl
@[simp] theorem State.zeroize_cbuf : s.zeroize.cbuf = zeroBuffer 8 := rfl
@[simp] theorem State.zeroize_digbuf : s.zeroize.digbuf = zeroBuffer 12 := rfl
@[simp] theorem State.zeroize_hs : s.zeroize.hs = zeroBuffer 64 := rfl
@[simp] theorem State.zeroize_key : s.zeroize.key = zeroBuffer 128 := rfl
@[simp] theorem State.zeroize_pending : s.zeroize.pending = s.pending := rfl
@[simp] theorem State.zeroize_rst : s.zeroize.rst = s.rst := rfl
@[simp] theorem State.zeroize_inputs : s.zeroize.inputs = s.inputs := rfl
@[simp] theorem State.zeroize_reply : s.zeroize.reply = s.reply := rfl

/-! ### accept -/

@[simp] theorem State.accept_ctrlIe (w : Word) : (s.accept w).ctrlIe = s.ctrlIe := rfl
@[simp] theorem State.accept_status (w : Word) : (s.accept w).status = s.status.accepted (w.extractLsb' 0 8) := rfl
@[simp] theorem State.accept_alg (w : Word) : (s.accept w).alg = s.alg := rfl
@[simp] theorem State.accept_digits (w : Word) : (s.accept w).digits = s.digits := rfl
@[simp] theorem State.accept_keyLen (w : Word) : (s.accept w).keyLen = s.keyLen := rfl
@[simp] theorem State.accept_period (w : Word) : (s.accept w).period = s.period := rfl
@[simp] theorem State.accept_valid (w : Word) : (s.accept w).valid = s.valid := rfl
@[simp] theorem State.accept_t0Lo (w : Word) : (s.accept w).t0Lo = s.t0Lo := rfl
@[simp] theorem State.accept_t0Hi (w : Word) : (s.accept w).t0Hi = s.t0Hi := rfl
@[simp] theorem State.accept_timeLo (w : Word) : (s.accept w).timeLo = s.timeLo := rfl
@[simp] theorem State.accept_timeHi (w : Word) : (s.accept w).timeHi = s.timeHi := rfl
@[simp] theorem State.accept_ctrLo (w : Word) : (s.accept w).ctrLo = s.ctrLo := rfl
@[simp] theorem State.accept_ctrHi (w : Word) : (s.accept w).ctrHi = s.ctrHi := rfl
@[simp] theorem State.accept_offset (w : Word) : (s.accept w).offset = s.offset := rfl
@[simp] theorem State.accept_otp31 (w : Word) : (s.accept w).otp31 = s.otp31 := rfl
@[simp] theorem State.accept_code (w : Word) : (s.accept w).code = s.code := rfl
@[simp] theorem State.accept_hsLen (w : Word) : (s.accept w).hsLen = s.hsLen := rfl
@[simp] theorem State.accept_codeLen (w : Word) : (s.accept w).codeLen = s.codeLen := rfl
@[simp] theorem State.accept_cbuf (w : Word) : (s.accept w).cbuf = s.cbuf := rfl
@[simp] theorem State.accept_digbuf (w : Word) : (s.accept w).digbuf = s.digbuf := rfl
@[simp] theorem State.accept_hs (w : Word) : (s.accept w).hs = s.hs := rfl
@[simp] theorem State.accept_key (w : Word) : (s.accept w).key = s.key := rfl
@[simp] theorem State.accept_pending (w : Word) : (s.accept w).pending = w := rfl
@[simp] theorem State.accept_rst (w : Word) : (s.accept w).rst = s.rst := rfl
@[simp] theorem State.accept_inputs (w : Word) : (s.accept w).inputs = s.inputs := rfl
@[simp] theorem State.accept_reply (w : Word) : (s.accept w).reply = s.reply := rfl

/-! ### The updates built from these -/

@[simp] theorem State.succeed_eq : s.succeed = s.setStatus (s.status.completed 0) := rfl
@[simp] theorem State.fail_eq (e : ErrCode) : s.fail e = s.setStatus (s.status.completed e.code) := rfl
@[simp] theorem State.acknowledge_eq : s.acknowledge = s.setStatus s.status.acknowledged := rfl
@[simp] theorem State.overrun_eq : s.overrun = s.setStatus s.status.overrun := rfl
@[simp] theorem State.commitReduced_eq (otp d : Nat) : s.commitReduced otp d =
    s.commitCode (reduceCode otp d) d (formatCode (reduceCode otp d) d) := rfl
@[simp] theorem State.resetTo_eq (b : Bool) : s.resetTo b = { State.reset with rst := b, inputs := s.inputs } := rfl

end Sys2Proof.Machine
end

