-- ==== Sys2Proof/Laws/Steps.lean ====
section
/-! SUPPORT. What each shared operation and each kind of step can do, said once: cite these instead of unfolding. -/

namespace Sys2Proof.Machine

/-! ### Flags -/

@[simp] theorem Status.accepted_busy (st : Status) (op : BitVec 8) : (st.accepted op).busy = true := rfl
@[simp] theorem Status.accepted_done (st : Status) (op : BitVec 8) : (st.accepted op).done = false := rfl
@[simp] theorem Status.accepted_err (st : Status) (op : BitVec 8) : (st.accepted op).err = false := rfl
@[simp] theorem Status.accepted_ovr (st : Status) (op : BitVec 8) : (st.accepted op).ovr = st.ovr := rfl
@[simp] theorem Status.accepted_errCode (st : Status) (op : BitVec 8) : (st.accepted op).errCode = 0 := rfl
@[simp] theorem Status.accepted_lastOp (st : Status) (op : BitVec 8) : (st.accepted op).lastOp = op := rfl
@[simp] theorem Status.completed_busy (st : Status) (e : BitVec 4) : (st.completed e).busy = false := rfl
@[simp] theorem Status.completed_done (st : Status) (e : BitVec 4) : (st.completed e).done = true := rfl
@[simp] theorem Status.completed_err (st : Status) (e : BitVec 4) : (st.completed e).err = (e != 0) := rfl
@[simp] theorem Status.completed_ovr (st : Status) (e : BitVec 4) : (st.completed e).ovr = st.ovr := rfl
@[simp] theorem Status.completed_errCode (st : Status) (e : BitVec 4) : (st.completed e).errCode = e := rfl
@[simp] theorem Status.completed_lastOp (st : Status) (e : BitVec 4) : (st.completed e).lastOp = st.lastOp := rfl
@[simp] theorem Status.acknowledged_busy (st : Status) : st.acknowledged.busy = st.busy := rfl
@[simp] theorem Status.acknowledged_done (st : Status) : st.acknowledged.done = false := rfl
@[simp] theorem Status.acknowledged_err (st : Status) : st.acknowledged.err = false := rfl
@[simp] theorem Status.acknowledged_ovr (st : Status) : st.acknowledged.ovr = st.ovr := rfl
@[simp] theorem Status.acknowledged_errCode (st : Status) : st.acknowledged.errCode = 0 := rfl
@[simp] theorem Status.acknowledged_lastOp (st : Status) : st.acknowledged.lastOp = st.lastOp := rfl
@[simp] theorem Status.overrun_busy (st : Status) : st.overrun.busy = st.busy := rfl
@[simp] theorem Status.overrun_done (st : Status) : st.overrun.done = st.done := rfl
@[simp] theorem Status.overrun_err (st : Status) : st.overrun.err = st.err := rfl
@[simp] theorem Status.overrun_ovr (st : Status) : st.overrun.ovr = true := rfl
@[simp] theorem Status.overrun_errCode (st : Status) : st.overrun.errCode = st.errCode := rfl
@[simp] theorem Status.overrun_lastOp (st : Status) : st.overrun.lastOp = st.lastOp := rfl

/-- STATUS after a host write, field by field (10_state.md R23). -/
theorem Status.written_eq (st : Status) (v : Word) : st.written v =
    { busy := st.busy
      done := if v.getLsbD 1 then false else st.done
      err := if v.getLsbD 1 then false else st.err
      ovr := if v.getLsbD 3 then false else st.ovr
      errCode := if v.getLsbD 1 then 0 else st.errCode
      lastOp := st.lastOp } := by
  unfold Status.written
  cases v.getLsbD 1 <;> cases v.getLsbD 3 <;> rfl

theorem ErrCode.code_ne_zero (e : ErrCode) : e.code ≠ 0 := by cases e <;> decide

theorem ErrCode.code_injective (e e' : ErrCode) (h : e.code = e'.code) : e = e' := by
  revert h; cases e <;> cases e' <;> decide

theorem ErrCode.code_toNat_le (e : ErrCode) : e.code.toNat ≤ 8 := by cases e <;> decide

/-! ### Completion -/

@[simp] theorem finish_ok (s t : State) : finish s (.ok t) = .next t.succeed := rfl
@[simp] theorem finish_error (s : State) (e : ErrCode) : finish s (.error e) = .next (s.fail e) := rfl

/-- A completion always answers a next state: the committed one, or the old one with an error recorded. -/
theorem finish_cases (s : State) (r : Except ErrCode State) :
    (∃ t, r = .ok t ∧ finish s r = .next t.succeed) ∨ (∃ e, r = .error e ∧ finish s r = .next (s.fail e)) := by
  cases r with
  | ok t => exact .inl ⟨t, rfl, rfl⟩
  | error e => exact .inr ⟨e, rfl, rfl⟩

/-! ### The checks of the commands -/

theorem algOfCode_eq_some (c : BitVec 8) (a : Alg) : algOfCode c = some a ↔
    (c = 0 ∧ a = .sha1) ∨ (c = 1 ∧ a = .sha256) ∨ (c = 2 ∧ a = .sha512) := by
  revert c; cases a <;> decide

theorem digitCount_eq_some (s : State) (d : Nat) :
    s.digitCount? = some d ↔ d = s.digits.toNat ∧ 1 ≤ d ∧ d ≤ 10 := by
  unfold State.digitCount? Config.digitsMin Config.digitsMax
  split <;> simp <;> omega

theorem digitCount_eq_none (s : State) : s.digitCount? = none ↔ s.digits.toNat < 1 ∨ 10 < s.digits.toNat := by
  unfold State.digitCount? Config.digitsMin Config.digitsMax
  split <;> simp <;> omega

theorem keyTooLong_eq_true (s : State) : s.keyTooLong = true ↔ 128 < s.keyLen.toNat := by
  exact decide_eq_true_iff

/-! ### The units -/

theorem timeStep_ok_iff (time t0 x : Int) (c : Nat) :
    timeStep time t0 x = .ok c ↔ 0 < x ∧ (time - t0).fdiv x = c := by
  unfold timeStep
  split
  · simp; omega
  · simp only
    split
    · simp; omega
    · simp only [Except.ok.injEq]; omega

theorem timeStep_error_iff (time t0 x : Int) (e : ErrCode) : timeStep time t0 x = .error e ↔
    (x ≤ 0 ∧ e = .invalidPeriod) ∨ (0 < x ∧ (time - t0).fdiv x < 0 ∧ e = .counterRange) := by
  unfold timeStep
  split
  · simp only [Except.error.injEq]
    constructor
    · rintro rfl; exact .inl ⟨‹_›, rfl⟩
    · rintro (⟨_, rfl⟩ | ⟨h, _⟩)
      · rfl
      · omega
  · simp only
    split
    · simp only [Except.error.injEq]
      constructor
      · rintro rfl; exact .inr ⟨by omega, ‹_›, rfl⟩
      · rintro (⟨h, _⟩ | ⟨_, _, rfl⟩)
        · omega
        · rfl
    · simp; omega

theorem truncate_ok_iff (h : List Byte) (o : BitVec 4) (x : Word) : truncate h = .ok (o, x) ↔
    (truncOffset h).toNat + 4 ≤ h.length ∧ o = truncOffset h ∧ x = truncWindow h (truncOffset h).toNat := by
  unfold truncate
  simp only
  split
  · simp; omega
  · simp only [Except.ok.injEq, Prod.mk.injEq]
    constructor
    · rintro ⟨rfl, rfl⟩; exact ⟨by omega, rfl, rfl⟩
    · rintro ⟨_, rfl, rfl⟩; exact ⟨rfl, rfl⟩

theorem truncate_error_iff (h : List Byte) (e : ErrCode) :
    truncate h = .error e ↔ h.length < (truncOffset h).toNat + 4 ∧ e = .truncRange := by
  unfold truncate
  simp only
  split
  · simp only [Except.error.injEq]
    exact ⟨fun h => ⟨by omega, h.symm⟩, fun h => h.2.symm⟩
  · simp; omega

/-- The truncation offset is at most 15. -/
theorem truncOffset_lt (h : List Byte) : (truncOffset h).toNat < 16 := (truncOffset h).isLt

/-- A code takes exactly as many characters as it has digits (42_truncate_reduce.md R205). -/
@[simp] theorem formatCode_length (c d : Nat) : (formatCode c d).length = d := by simp [formatCode]

/-- What the fused computation can do: the first failing check in priority order, or the commit of every result. -/
theorem computeCode_cases (s : State) (c : Nat) :
    (algOfCode s.alg = none ∧ computeCode s c = .error .unsupportedAlg) ∨
    (∃ a, algOfCode s.alg = some a ∧
      ((s.digitCount? = none ∧ computeCode s c = .error .invalidDigits) ∨
       (∃ d, s.digitCount? = some d ∧
         ((s.keyTooLong = true ∧ computeCode s c = .error .keyLength) ∨
          (s.keyTooLong = false ∧
            ((∃ e, truncate (hmac a s.secret (serializeCounter c)) = .error e ∧ computeCode s c = .error e) ∨
             (∃ o x, truncate (hmac a s.secret (serializeCounter c)) = .ok (o, x) ∧
               computeCode s c = .ok ((((s.commitCbuf (serializeCounter c)).commitHs
                 (hmac a s.secret (serializeCounter c))).commitOtp o x).commitReduced x.toNat d)))))))) := by
  unfold computeCode
  cases ha : algOfCode s.alg with
  | none => simp
  | some a =>
    cases hd : s.digitCount? with
    | none => simp
    | some d =>
      cases hk : s.keyTooLong with
      | true => simp
      | false =>
        cases ht : truncate (hmac a s.secret (serializeCounter c)) with
        | error e => simp [ht]
        | ok p => rcases p with ⟨o, x⟩; simp [ht]

/-! ### The commands -/

/-- The operation of each command, before its completion. -/
def runOf (i : Instr) (s : State) : Except ErrCode State :=
  match i with
  | .nop => runNop s
  | .ser => runSer s
  | .tstep => runTstep s
  | .hmac => runHmac s
  | .trunc => runTrunc s
  | .reduce => runReduce s
  | .hotp => runHotp s
  | .totp => runTotp s
  | .clear => runClear s

/-- Every command is its operation and then the one shared completion. -/
theorem exec_eq_finish (i : Instr) (s : State) : exec i s = finish s (runOf i s) := by cases i <;> rfl

/-- A command whose operation succeeds commits it. -/
theorem exec_of_ok {i : Instr} {s t : State} (h : runOf i s = .ok t) : exec i s = .next t.succeed := by
  rw [exec_eq_finish, h, finish_ok]

/-- A command whose operation fails records the error and nothing else. -/
theorem exec_of_error {i : Instr} {s : State} {e : ErrCode} (h : runOf i s = .error e) :
    exec i s = .next (s.fail e) := by
  rw [exec_eq_finish, h, finish_error]

theorem runSer_cases (s : State) :
    (s.valid.counter = false ∧ runSer s = .error .missingInput) ∨
    (s.valid.counter = true ∧ runSer s = .ok (s.commitCbuf (serializeCounter s.counter))) := by
  unfold runSer
  cases s.valid.counter <;> simp

theorem runTstep_cases (s : State) :
    (s.valid.time = false ∧ runTstep s = .error .missingInput) ∨
    (s.valid.time = true ∧
      ((∃ e, timeStep s.time s.t0 s.periodSeconds = .error e ∧ runTstep s = .error e) ∨
       (∃ c, timeStep s.time s.t0 s.periodSeconds = .ok c ∧ runTstep s = .ok (s.commitCounter c)))) := by
  unfold runTstep
  cases s.valid.time <;> cases timeStep s.time s.t0 s.periodSeconds <;> simp

theorem runHmac_cases (s : State) :
    ((s.valid.cbuf && s.valid.key) = false ∧ runHmac s = .error .missingInput) ∨
    ((s.valid.cbuf && s.valid.key) = true ∧
      ((algOfCode s.alg = none ∧ runHmac s = .error .unsupportedAlg) ∨
       (∃ a, algOfCode s.alg = some a ∧
         ((s.keyTooLong = true ∧ runHmac s = .error .keyLength) ∨
          (s.keyTooLong = false ∧ runHmac s = .ok (s.commitHs (hmac a s.secret s.cbuf.toList))))))) := by
  unfold runHmac
  cases (s.valid.cbuf && s.valid.key) <;> cases algOfCode s.alg <;> cases s.keyTooLong <;> simp

theorem runTrunc_cases (s : State) :
    (s.valid.hs = false ∧ runTrunc s = .error .missingInput) ∨
    (s.valid.hs = true ∧
      ((∃ e, truncate s.hash = .error e ∧ runTrunc s = .error e) ∨
       (∃ o x, truncate s.hash = .ok (o, x) ∧ runTrunc s = .ok (s.commitOtp o x)))) := by
  unfold runTrunc
  cases s.valid.hs with
  | false => simp
  | true =>
    cases ht : truncate s.hash with
    | error e => simp
    | ok p => rcases p with ⟨o, x⟩; simp

theorem runReduce_cases (s : State) :
    (s.valid.otp = false ∧ runReduce s = .error .missingInput) ∨
    (s.valid.otp = true ∧
      ((s.digitCount? = none ∧ runReduce s = .error .invalidDigits) ∨
       (∃ d, s.digitCount? = some d ∧ runReduce s = .ok (s.commitReduced s.otp31.toNat d)))) := by
  unfold runReduce
  cases s.valid.otp <;> cases s.digitCount? <;> simp

theorem runHotp_cases (s : State) :
    ((s.valid.counter && s.valid.key) = false ∧ runHotp s = .error .missingInput) ∨
    ((s.valid.counter && s.valid.key) = true ∧ runHotp s = computeCode s s.counter) := by
  unfold runHotp
  cases (s.valid.counter && s.valid.key) <;> simp

theorem runTotp_cases (s : State) :
    ((s.valid.time && s.valid.key) = false ∧ runTotp s = .error .missingInput) ∨
    ((s.valid.time && s.valid.key) = true ∧
      ((∃ e, timeStep s.time s.t0 s.periodSeconds = .error e ∧ runTotp s = .error e) ∨
       (∃ c, timeStep s.time s.t0 s.periodSeconds = .ok c ∧
         ((∃ e, computeCode s c = .error e ∧ runTotp s = .error e) ∨
          (∃ t, computeCode s c = .ok t ∧ runTotp s = .ok (t.commitCounter c)))))) := by
  unfold runTotp
  cases (s.valid.time && s.valid.key) with
  | false => simp
  | true =>
    cases timeStep s.time s.t0 s.periodSeconds with
    | error e => simp
    | ok c => cases hc : computeCode s c <;> simp [hc]

/-! ### The window -/

/-- Every access that reaches the window selects a mapped word or a reason for a bus error, never both. -/
theorem selectReg_ok_iff (w : AccessWidth) (off : Nat) (r : Reg) :
    selectReg w off = .ok r ↔ w = .w32 ∧ off % 4 = 0 ∧ regAt off = some r := by
  unfold selectReg
  split
  · simp_all
  · split
    · simp_all
    · cases regAt off <;> simp_all

theorem selectReg_error_iff (w : AccessWidth) (off : Nat) :
    (∃ why, selectReg w off = .error why) ↔ w ≠ .w32 ∨ off % 4 ≠ 0 ∨ regAt off = none := by
  unfold selectReg
  split
  · simp_all
  · split
    · simp_all
    · cases regAt off <;> simp_all

/-- The map puts each word at its own offset (20_memory.md R74). -/
@[simp] theorem regAt_byteOffset (r : Reg) : regAt r.byteOffset = some r := by
  cases r with
  | cbuf k => revert k; decide
  | digbuf k => revert k; decide
  | hs k => revert k; decide
  | key k => revert k; decide
  | _ => decide

theorem byteOffset_aligned (r : Reg) : r.byteOffset % 4 = 0 := by
  cases r with
  | cbuf k => revert k; decide
  | digbuf k => revert k; decide
  | hs k => revert k; decide
  | key k => revert k; decide
  | _ => decide

theorem byteOffset_lt_window (r : Reg) : r.byteOffset < Config.window := by
  cases r with
  | cbuf k => revert k; decide
  | digbuf k => revert k; decide
  | hs k => revert k; decide
  | key k => revert k; decide
  | _ => decide

/-- What a write of a mapped word can do (20_memory.md R78). -/
theorem writeReg_cases (s : State) (r : Reg) (v : Word) :
    (r.accessType = .ro ∧ writeReg s r v = s) ∨
    (r = .ctrl ∧ writeReg s r v = { s with ctrlIe := v.getLsbD 0 }) ∨
    (r = .status ∧ writeReg s r v = s.setStatus (s.status.written v)) ∨
    (r.accessType ≠ .ro ∧ r ≠ .ctrl ∧ r ≠ .status ∧ s.status.busy = true ∧ writeReg s r v = s.overrun) ∨
    (r.accessType ≠ .ro ∧ r ≠ .ctrl ∧ r ≠ .status ∧ s.status.busy = false ∧ writeReg s r v = writeInput s r v) := by
  unfold writeReg
  split
  · exact .inl ⟨‹_›, rfl⟩
  · split
    · exact .inr (.inl ⟨‹_›, rfl⟩)
    · split
      · exact .inr (.inr (.inl ⟨‹_›, rfl⟩))
      · split
        · exact .inr (.inr (.inr (.inl ⟨‹_›, ‹_›, ‹_›, ‹_›, rfl⟩)))
        · exact .inr (.inr (.inr (.inr ⟨‹_›, ‹_›, ‹_›, Bool.eq_false_iff.mpr ‹_›, rfl⟩)))

/-- A write never changes the reset input. -/
@[simp] theorem writeReg_rst (s : State) (r : Reg) (v : Word) : (writeReg s r v).rst = s.rst := by
  rcases writeReg_cases s r v with ⟨_, h⟩ | ⟨_, h⟩ | ⟨_, h⟩ | ⟨_, _, _, _, h⟩ | ⟨_, _, _, _, h⟩ <;> rw [h] <;> try rfl
  cases r <;> simp [writeInput]

theorem groupWord_eq_some {count : Nat} {mk : Fin count → Reg} {n : Nat} {r : Reg} :
    groupWord count mk n = some r ↔ ∃ h : n < count, mk ⟨n, h⟩ = r := by
  unfold groupWord; split <;> simp [*]

/-! ### Steps -/

/-- What an engine turn can do. -/
theorem engineTurn_cases (s : State) :
    (s.rst = true ∧ engineTurn s = .next (s.resetTo true)) ∨
    (s.rst = false ∧ s.status.busy = true ∧ engineTurn s = completePending s) ∨
    (s.rst = false ∧ s.status.busy = false ∧ engineTurn s = .next s) := by
  unfold engineTurn
  cases hr : s.rst <;> cases hb : s.status.busy <;> simp

/-- An access that answers a next state reached the window, was answered, and left what `busAccess` says. -/
theorem hostAccess_next {s t : State} {a : Access} (h : hostAccess s a = .next t) :
    ∃ off, a.busAddr.windowOffset = some off ∧ s.rst = false ∧
      (∀ why, (busAccess s a off).1 ≠ .busError why) ∧
      t = (busAccess s a off).2.setReply (busAccess s a off).1 := by
  unfold hostAccess reachWindow at h
  cases ho : a.busAddr.windowOffset with
  | none => simp [ho] at h
  | some off =>
    cases hr : s.rst with
    | true => simp [ho, hr] at h
    | false =>
      simp only [ho, hr] at h
      rcases hb : busAccess s a off with ⟨r, u⟩
      refine ⟨off, rfl, rfl, ?_⟩
      cases r <;> simp_all

theorem hostProbe_next {s t : State} {a : Access} (h : hostProbe s a = .next t) :
    ∃ off, a.busAddr.windowOffset = some off ∧ s.rst = false ∧
      t = (busAccess s a off).2.setReply (busAccess s a off).1 := by
  unfold hostProbe reachWindow at h
  cases ho : a.busAddr.windowOffset with
  | none => simp [ho] at h
  | some off =>
    cases hr : s.rst with
    | true => simp [ho, hr] at h
    | false => simp_all

/-- What one access leaves of the state: a read or an error nothing, a write what `writeReg` says. -/
theorem busAccess_state (s : State) (a : Access) (off : Nat) :
    (busAccess s a off).2 = s ∨
    ∃ r v, regAt off = some r ∧ (busAccess s a off).2 = writeReg s r v := by
  cases a with
  | read w addr => exact .inl rfl
  | write w addr v =>
    simp only [busAccess, busWrite]
    cases hs : selectReg w off with
    | error why => exact .inl rfl
    | ok r => exact .inr ⟨r, v, ((selectReg_ok_iff w off r).mp hs).2.2, rfl⟩

theorem step_nil {s : State} (h : s.inputs = []) : step s = engineTurn s := by
  simp [step, nextStep, h]

theorem step_cons {s : State} {e : Event} {es : List Event} (h : s.inputs = e :: es) :
    step s = deliver (s.setInputs es) e := by
  simp [step, nextStep, h]

/-- A run of `k + 1` steps whose first step answers `t` is the run of `k` steps from `t`. Stated for any machine, so
that it applies to `core` without unfolding it. -/
theorem run_of_step_next (M : Host.Core) (k : Nat) (s t : M.State) (h : M.step s = .next t) :
    M.run (k + 1) s = M.run k t := by
  simp only [Host.Core.run, h]

end Sys2Proof.Machine
end

