-- ==== Sys2Proof/Machine/HostNotation.lean ====
section
/-! DEFINITION. The host-side notation of 30_encoding.md R106 and the two software calls of 43_fused_control.md R236,
as lists of events for `State.inputs`. The position of the engine's turn inside WAIT is an argument (assumption
log 21). -/

namespace Sys2Proof.Machine

/-- `WR <reg>, <value>` (R106). -/
def hostWr (r : Reg) (v : Word) : Event := .access (.write .w32 (.window r.byteOffset) v)

/-- `RD <reg>` (R106). -/
def hostRd (r : Reg) : Event := .access (.read .w32 (.window r.byteOffset))

/-- `<MNEMONIC>`: the write of its command word to CMD (R106). -/
def hostIssue (i : Instr) : Event := hostWr .cmd (encode i)

/-- `WAIT`, in a run whose engine completes after `polls` polls of STATUS (R106). -/
def hostWait (polls : Nat) : List Event := List.replicate polls (hostRd .status) ++ [.engine, hostRd .status]

/-- `ACK`: the write that clears DONE, ERR and ERRCODE (R106). -/
def hostAck : Event := hostWr .status 0x00000002

/-- `WR64 <Q>, <v>`, for the pair of words `lo`, `hi` of Q (R106). -/
def hostWr64 (lo hi : Reg) (v : BitVec 64) : List Event :=
  [hostWr lo (v.extractLsb' 0 32), hostWr hi (v.extractLsb' 32 32)]

/-- `KEYLOAD <bytes>`: the KEY words, the last one padded with 0x00, then KEYLEN (R106). -/
def hostKeyload (bytes : List Byte) : List Event :=
  ((List.range ((bytes.length + 3) / 4)).map fun k =>
    let four := (List.range 4).map fun j => bytes.getD (4 * k + j) 0
    .access (.write .w32 (.window (0x100 + 4 * k)) (BitVec.ofNat 32 (beInt four)))) ++
  [hostWr .keyLen (BitVec.ofNat 32 bytes.length)]

/-- The ALG code of an algorithm (R105). -/
def Alg.configCode (a : Alg) : BitVec 8 :=
  match a with
  | .sha1 => 0
  | .sha256 => 1
  | .sha512 => 2

/-- `digits << 8 | alg_code(algorithm)`, the CONFIG word of a call (R236). -/
def callConfig (a : Alg) (digits : BitVec 8) : Word := digits.setWidth 32 <<< 8 ||| a.configCode.setWidth 32

/-- `computeHOTP(secret, counter, algorithm, digits)` up to its last STATUS read (R236). -/
def computeHotpCall (secret : List Byte) (counter : BitVec 64) (a : Alg) (digits : BitVec 8) (polls : Nat) :
    List Event :=
  hostKeyload secret ++ hostWr64 .ctrLo .ctrHi counter ++ [hostWr .config (callConfig a digits), hostIssue .hotp]
    ++ hostWait polls

/-- `computeTOTP` up to its last STATUS read; the secret is already decoded and the time already floored (R236). -/
def computeTotpCall (secret : List Byte) (a : Alg) (digits : BitVec 8) (period : Word) (t0 time : BitVec 64)
    (polls : Nat) : List Event :=
  hostKeyload secret ++ [hostWr .period period] ++ hostWr64 .t0Lo .t0Hi t0 ++ hostWr64 .timeLo .timeHi time
    ++ [hostWr .config (callConfig a digits), hostIssue .totp] ++ hostWait polls

/-- What a call returns: the error code if ERR is set, else CODELEN bytes of DIGBUF (R236). -/
def callResult (s : State) : Except (BitVec 4) (List Byte) :=
  if s.status.err then .error s.status.errCode else .ok (s.digbuf.toList.take s.codeLen.toNat)

end Sys2Proof.Machine
end

