-- ==== Sys2Proof/Tests/Slice0.lean ====
section
/-! SUPPORT. The model's own tests. Expected values are the spec's: 95_test_vectors.md (the section or row is named at
each test) and 30_encoding.md R103. After them, for every obligation with hypotheses, concrete states that meet all of
them together. -/

open Sys2Proof Sys2Proof.Machine Sys2Proof.Claims

namespace Sys2Proof.Tests

/-! ### Helpers -/

/-- `o` is a next state for which `p` holds. -/
def holdsAfter (o : Host.Outcome State Fault Refusal) (p : State → Bool) : Bool :=
  match o with
  | .next t => p t
  | .fault _ => false
  | .refused _ => false

theorem exists_of_holdsAfter {o : Host.Outcome State Fault Refusal} {p : State → Bool} (h : holdsAfter o p = true) :
    ∃ t, o = .next t ∧ p t = true := by
  cases o with
  | next t => exact ⟨t, rfl, h⟩
  | fault f => cases h
  | refused r => cases h

/-- The secret K1 of 95_test_vectors.md, "12345678901234567890". -/
def k1 : List Byte := [0x31, 0x32, 0x33, 0x34, 0x35, 0x36, 0x37, 0x38, 0x39, 0x30, 0x31, 0x32, 0x33, 0x34, 0x35, 0x36,
  0x37, 0x38, 0x39, 0x30]

/-- The 20-byte hash whose bytes are given, as HS holds it. -/
def hs20 (bytes : List Byte) (s : State) : State :=
  { s with hs := bufferOf 64 bytes, hsLen := BitVec.ofNat 8 bytes.length, valid := { s.valid with hs := true } }

/-- Reset, then KEYLOAD K1, COUNTER 1, TIME 59; DIGITS 6, SHA-1, PERIOD 30 and T0 0 as reset leaves them. -/
def keyed : State :=
  { State.reset with
    key := bufferOf 128 k1
    keyLen := 20
    ctrLo := 1
    timeLo := 59
    valid := { State.reset.valid with key := true, ctrLo := true, ctrHi := true, timeLo := true, timeHi := true } }

/-- HMAC of counter 0 under K1 (HMAC vectors, first row). -/
def hash0 : List Byte := [0xcc, 0x93, 0xcf, 0x18, 0x50, 0x8d, 0x94, 0x93, 0x4c, 0x64, 0xb6, 0x5d, 0x8b, 0xa7, 0x66, 0x7f,
  0xb7, 0xcd, 0xe4, 0xb0]

/-- A state with every valid bit but CODE_V set: the inputs of `keyed`, CBUF of counter 0 and its stored hash, OTP31 42. -/
def full : State :=
  { hs20 hash0 keyed with
    otp31 := 42
    valid := { key := true, ctrLo := true, ctrHi := true, timeLo := true, timeHi := true, cbuf := true, hs := true,
               otp := true, code := false } }

/-- `s` with the word `w` accepted and the events `es` to come. -/
def running (s : State) (w : Word) (es : List Event) : State := { accepted s w with inputs := es }

/-! ### Well-formedness: one ill-formed word for each check, refused by name -/

theorem test_wf_rsvd : CommandWord.wellFormed 0x00000108 = false ∧ CommandWord.rsvdIsZero 0x00000108 = false ∧
    CommandWord.opcodeIsAssigned 0x00000108 = true := by decide

theorem test_wf_opcode : CommandWord.wellFormed 0x00000006 = false ∧ CommandWord.rsvdIsZero 0x00000006 = true ∧
    CommandWord.opcodeIsAssigned 0x00000006 = false := by decide

theorem test_wf_opcode_limits : [(0x07 : Word), 0x0A, 0x0E, 0x10, 0xFF].map CommandWord.wellFormed =
    [false, false, false, false, false] := by decide

theorem test_wf_instr : (encode .hotp == 0x00000008 && Instr.wellFormed .hotp) = true := by decide

theorem test_decode_refuses_by_name :
    (∃ v, decode 0x80000000 = .error (.reservedBits v) ∧ v = 0x800000) ∧
    (∃ v, decode 0x0000000E = .error (.unassignedOpcode v) ∧ v = 0x0E) :=
  ⟨⟨_, rfl, by decide⟩, ⟨_, rfl, by decide⟩⟩

/-! ### Decoding: the words of 30_encoding.md R103, written out -/

theorem test_decode_table : decodeTableWord 32 0b00000000000000000000000000000000 = some .nop ∧
    decodeTableWord 32 0b00000000000000000000000000000001 = some .ser ∧
    decodeTableWord 32 0b00000000000000000000000000000010 = some .tstep ∧
    decodeTableWord 32 0b00000000000000000000000000000011 = some .hmac ∧
    decodeTableWord 32 0b00000000000000000000000000000100 = some .trunc ∧
    decodeTableWord 32 0b00000000000000000000000000000101 = some .reduce ∧
    decodeTableWord 32 0b00000000000000000000000000001000 = some .hotp ∧
    decodeTableWord 32 0b00000000000000000000000000001001 = some .totp ∧
    decodeTableWord 32 0b00000000000000000000000000001111 = some .clear := by decide

theorem test_decode_table_refuses : decodeTableWord 32 0x00000108 = none ∧ decodeTableWord 32 0x000000FF = none ∧
    decodeTableWord 64 0x00000001 = none := by decide

/-! ### The hash functions (hash check values) -/

theorem test_sha1_abc : beInt (sha1 [0x61, 0x62, 0x63]) = 0xa9993e364706816aba3e25717850c26c9cd0d89d := by
  decide +kernel

theorem test_sha1_two_blocks : beInt (sha1 (List.replicate 56 0)) = 0x9438e360f578e12c0e0e8ed28e2c125c1cefee16 := by
  decide +kernel

theorem test_sha256_abc : beInt (sha256 [0x61, 0x62, 0x63]) =
    0xba7816bf8f01cfea414140de5dae2223b00361a396177a9cb410ff61f20015ad := by decide +kernel

theorem test_sha512_abc : beInt (sha512 [0x61, 0x62, 0x63]) =
    0xddaf35a193617abacc417349ae20413112e6fa4e89a97ea20a9eeee64b55d39a2192992a274fc1a836ba3c23a3feebbd454d4423643ce80e2a9ac94fa54ca49f := by
  decide +kernel

/-! ### The commands -/

/-- Error priority and STATUS words: NOP on the reset state. -/
theorem test_nop : holdsAfter (issued .nop State.reset) (fun t => readReg t .status == 0x00000002) = true := by decide

/-- SER vectors, COUNTER 0x0123456789ABCDEF. -/
theorem test_ser : holdsAfter (exec .ser { keyed with ctrHi := 0x01234567, ctrLo := 0x89ABCDEF })
    (fun t => readReg t (.cbuf 0) == 0x01234567 && readReg t (.cbuf 1) == 0x89ABCDEF && t.valid.cbuf) = true := by decide

/-- SER vectors: CTR_LO written, CTR_HI never. -/
theorem test_ser_missing : holdsAfter (issued .ser (writeReg State.reset .ctrLo 5))
    (fun t => readReg t .status == 0x00010206) = true := by decide

/-- TSTEP vectors: the greatest quotient there is. -/
theorem test_tstep_greatest : holdsAfter
    (exec .tstep { keyed with timeHi := 0x7FFFFFFF, timeLo := 0xFFFFFFFF, t0Hi := 0x80000000, t0Lo := 0, period := 1 })
    (fun t => t.ctrHi == 0xFFFFFFFF && t.ctrLo == 0xFFFFFFFF && t.status.errCode == 0) = true := by decide

/-- TSTEP vectors, TIME 99 and T0 100: the quotient is floored to -1, not truncated to 0. -/
theorem test_tstep_floors : holdsAfter (exec .tstep { keyed with timeLo := 99, t0Lo := 100 })
    (fun t => t.status.errCode == 4 && t.ctrLo == 1) = true := by decide

/-- HMAC vectors, ALG 0, K1, counter 1. -/
theorem test_hmac : holdsAfter (exec .hmac (keyed.commitCbuf (beBytes 8 1)))
    (fun t => readReg t (.hs 0) == 0x75A48A19 && readReg t (.hs 4) == 0x7A2D33AB && readReg t (.hs 5) == 0 &&
      t.hsLen == 20 && t.valid.hs) = true := by decide +kernel

/-- HMAC vectors, ALG 0, a key of 65 bytes 00..40, which is hashed first. -/
theorem test_hmac_long_key : beInt (hmac .sha1 ((List.range 65).map (BitVec.ofNat 8)) (beBytes 8 1)) =
    0x7f7bb6b53d6f4de3e5d25fddfe356529487057dc := by decide +kernel

/-- HOTP vectors, counter 0: OFFSET 0 and OTP31 0x4C93CF18 from the hash of counter 0. -/
theorem test_trunc : holdsAfter (exec .trunc full) (fun t => t.offset == 0 && t.otp31 == 0x4C93CF18) = true := by decide

/-- TRUNC vectors, rows 5 and 7: offset 15, the top bit of the window masked; the window ends at byte 18. -/
theorem test_trunc_mask :
    truncate (List.replicate 19 0xFF ++ [0x0F]) = .ok (15, 0x7FFFFFFF) ∧
    truncate ((List.range 16).map (BitVec.ofNat 8) ++ [0x10, 0x11, 0x12, 0x3F]) = .ok (15, 0x0F101112) := ⟨rfl, rfl⟩

/-- REDUCE vectors, OTP31 42 and DIGITS 6: "000042". -/
theorem test_reduce : holdsAfter (exec .reduce full) (fun t => t.code == 42 && t.codeLen == 6 &&
    readReg t (.digbuf 0) == 0x30303030 && readReg t (.digbuf 1) == 0x34320000 && readReg t (.digbuf 2) == 0) = true := by
  decide

/-- REDUCE vectors, OTP31 2147483647 and DIGITS 10. -/
theorem test_reduce_ten : holdsAfter (exec .reduce { full with otp31 := 2147483647, digits := 10 })
    (fun t => t.code == 2147483647 && readReg t (.digbuf 0) == 0x32313437 && readReg t (.digbuf 1) == 0x34383336 &&
      readReg t (.digbuf 2) == 0x34370000) = true := by decide

/-- HOTP vectors, counter 1: OFFSET 11, OTP31 0x41397EEA, "287082". -/
theorem test_hotp : holdsAfter (exec .hotp keyed) (fun t => t.offset == 11 && t.otp31 == 0x41397EEA &&
    t.code == 287082 && readReg t (.digbuf 0) == 0x32383730 && readReg t (.digbuf 1) == 0x38320000 &&
    readReg t (.cbuf 1) == 1) = true := by decide +kernel

/-- Error priority: KEYLEN 200, DIGITS 0 and ALG 3 together report ALG. -/
theorem test_hotp_priority : holdsAfter (issued .hotp { keyed with alg := 3, digits := 0, keyLen := 200 })
    (fun t => readReg t .status == 0x00080506) = true := by decide

/-- TOTP vectors, TIME 1111111109 with SHA-1 and 8 digits: COUNTER 0x23523EC and 07081804. -/
theorem test_totp : holdsAfter (exec .totp { keyed with timeLo := 0x423A35C5, digits := 8, ctrLo := 0 })
    (fun t => t.ctrLo == 0x023523EC && t.ctrHi == 0 && t.code == 7081804 && readReg t (.digbuf 0) == 0x30373038 &&
      readReg t (.digbuf 1) == 0x31383034) = true := by decide +kernel

/-- P4: a TOTP with TIME 99 and T0 100 fails with COUNTER_RANGE and leaves COUNTER. -/
theorem test_totp_fails : holdsAfter (issued .totp { keyed with timeLo := 99, t0Lo := 100, ctrLo := 7 })
    (fun t => readReg t .status == 0x00090406 && t.ctrLo == 7) = true := by decide

/-- P3: CLEAR zeroes the secret and keeps CONFIG and PERIOD. -/
theorem test_clear : holdsAfter (issued .clear full) (fun t => readReg t .status == 0x000F0002 &&
    readReg t .valid == 0 && t.key == zeroBuffer 128 && t.keyLen == 0 && readReg t .config == 0x00000600 &&
    readReg t (.hs 0) == 0 && t.period == 30) = true := by decide

/-- Error priority and STATUS words: the illegal word 0x108 keeps its low byte in LASTOP. -/
theorem test_illegal : holdsAfter (step (State.reset.withFetchWord 32 0x00000108))
    (fun t => readReg t .status == 0x00080106) = true := by decide

/-! ### The window (register-access vectors) -/

theorem test_read_id : holdsAfter (step { State.reset with inputs := [hostRd .id] })
    (fun t => t.reply == some (.data 0x4F545031)) = true := by decide

theorem test_write_masks : readReg (writeReg State.reset .ctrl 0xFFFFFFFF) .ctrl = 0x00000001 ∧
    readReg (writeReg State.reset .config 0xFFFFFFFF) .config = 0x0000FFFF ∧
    readReg (writeReg State.reset .keyLen 0x12345678) .keyLen = 0x00005678 := by decide

theorem test_ro_write_ignored : writeReg State.reset .otp31 0x12345678 = State.reset ∧
    writeReg State.reset .valid 0xFFFFFFFF = State.reset := by decide

theorem test_busy_write_dropped : (writeReg (accepted State.reset 9) .ctrLo 5).ctrLo = 0 ∧
    readReg (writeReg (writeReg (accepted State.reset 9) .ctrLo 5) .cmd 8) .status = 0x00090009 := by decide

/-- P1, step 1: KEY0 takes the first four bytes of the secret, first byte in bits 31:24. -/
theorem test_key_lanes : ((writeReg State.reset (.key 0) 0x31323334).key.toList.take 5) =
    [0x31, 0x32, 0x33, 0x34, 0x00] := by decide

theorem test_bus_errors : ([0x04C, 0x002, 0x180, 0xFFC].map fun off => holdsAfter
    (hostProbe State.reset (.read .w32 (.window off)))
    (fun t => t == { State.reset with reply := t.reply } && (t.reply == some (.busError .unmapped) ||
      t.reply == some (.busError .misaligned)))) = [true, true, true, true] := by decide

/-! ### Witnesses: states and operands that meet every hypothesis of an obligation, clause by clause -/

theorem test_witness_IllegalWordIsAcceptedThenFails :
    (IllegalWord 0x00000100 ∧ IllegalWord 0x80000000 ∧ IllegalWord 0x00000006 ∧ IllegalWord 0x00000007 ∧
     IllegalWord 0x0000000A ∧ IllegalWord 0x0000000E ∧ IllegalWord 0x00000010 ∧ IllegalWord 0x000000FF) ∧
    State.reset.rst = false ∧ State.reset.status.busy = false := by unfold IllegalWord; decide

theorem test_witness_StepRunsDecodedCommand :
    (running full 8 [.engine]).rst = false ∧ (running full 8 [.engine]).status.busy = true ∧
    decode (running full 8 [.engine]).pending = .ok .hotp ∧ (running full 8 [.engine]).inputs = .engine :: [] ∧
    (running full 8 []).inputs = [] := ⟨rfl, rfl, rfl, rfl, rfl⟩

theorem test_witness_CommandAcceptance : (accepted full 3).status.busy = true ∧ full.status.busy = false := by decide

theorem test_witness_IssuedCommandCompletes :
    let s := { full with inputs := [.access (.write .w32 (.window 0x00C) (encode .totp)), .engine] }
    s.rst = false ∧ s.status.busy = false ∧
    s.inputs = [.access (.write .w32 (.window 0x00C) (encode .totp)), .engine] := by decide

theorem test_witness_OnlyCompletionOrResetEndsBusy :
    (running full 1 [.engine]).status.busy = true ∧
    (∃ t, step (running full 1 [.engine]) = .next t ∧ (!t.status.busy && t.status.done) = true) ∧
    (∃ t, step (running full 1 [.rst true]) = .next t ∧ (!t.status.busy && t.rst) = true) :=
  ⟨rfl, exists_of_holdsAfter (p := fun t => !t.status.busy && t.status.done) (by decide),
    exists_of_holdsAfter (p := fun t => !t.status.busy && t.rst) (by decide)⟩

theorem test_witness_IdleEngineChangesNothing : full.rst = false ∧ full.status.busy = false ∧ full.inputs = [] ∧
    ({ full with inputs := [.engine] } : State).inputs = .engine :: [] := by decide

theorem test_witness_SerResult :
    State.reset.valid.ctrLo = false ∧ (writeReg State.reset .ctrLo 5).valid.ctrHi = false ∧
    full.valid.ctrLo = true ∧ full.valid.ctrHi = true := by decide

theorem test_witness_SerPreservesCounter : full.valid.ctrLo = true ∧ full.valid.ctrHi = true := by decide

theorem test_witness_TstepResult :
    State.reset.valid.timeLo = false ∧ (writeReg State.reset .timeLo 5).valid.timeHi = false ∧
    (full.valid.timeLo = true ∧ full.valid.timeHi = true) ∧
    (({ full with period := 0 } : State).periodSeconds ≤ 0 ∧
      ({ full with period := 0xFFFFFFFF } : State).periodSeconds ≤ 0) ∧
    (0 < ({ full with period := 1, t0Lo := 60 } : State).periodSeconds ∧
      ({ full with period := 1, t0Lo := 60 } : State).time < ({ full with period := 1, t0Lo := 60 } : State).t0) ∧
    (0 < ({ full with t0Lo := 59 } : State).periodSeconds ∧
      ({ full with t0Lo := 59 } : State).t0 ≤ ({ full with t0Lo := 59 } : State).time) := by decide

theorem test_witness_HmacResult :
    State.reset.valid.cbuf = false ∧ keyed.valid.cbuf = false ∧
    (full.valid.cbuf = true ∧ full.valid.key = true) ∧ 3 ≤ (3 : BitVec 8).toNat ∧
    ((2 : BitVec 8).toNat ≤ 2 ∧ 128 < (129 : BitVec 16).toNat) ∧
    (AlgIs full .sha1 ∧ AlgIs { full with alg := 2 } .sha512 ∧ (128 : BitVec 16).toNat ≤ 128) := by
  unfold AlgIs; decide

theorem test_witness_TruncResult :
    let short := hs20 [0x00] full
    let exact := hs20 (List.replicate 18 0 ++ [0x0F]) full
    State.reset.valid.hs = false ∧
    (short.valid.hs = true ∧ 1 ≤ short.hsLen.toNat ∧ short.hsLen.toNat ≤ 64 ∧
      0 = (bufferByte short.hs (short.hsLen.toNat - 1)).toNat % 16 ∧ short.hsLen.toNat < 0 + 4) ∧
    (exact.valid.hs = true ∧ 1 ≤ exact.hsLen.toNat ∧ exact.hsLen.toNat ≤ 64 ∧
      15 = (bufferByte exact.hs (exact.hsLen.toNat - 1)).toNat % 16 ∧ 15 + 4 ≤ exact.hsLen.toNat) := by decide

theorem test_witness_TruncRangeIsUnreachable :
    full.HashSound ∧ ∃ t, exec .trunc full = .next t ∧ (t.otp31 == 0x4C93CF18) = true :=
  ⟨by decide, exists_of_holdsAfter (p := fun t => t.otp31 == 0x4C93CF18) (by decide)⟩

theorem test_witness_ReduceResult :
    State.reset.valid.otp = false ∧ full.valid.otp = true ∧ (0 : BitVec 8).toNat < 1 ∧ 10 < (11 : BitVec 8).toNat ∧
    (1 ≤ (1 : BitVec 8).toNat ∧ (10 : BitVec 8).toNat ≤ 10) := by decide

theorem test_witness_ClearResult : Instr.ser ≠ .nop ∧ Instr.ser ≠ .clear ∧ Instr.totp ≠ .nop := by decide

theorem test_witness_HotpResult :
    State.reset.valid.ctrLo = false ∧ (writeReg State.reset .ctrLo 5).valid.ctrHi = false ∧
    State.reset.valid.key = false ∧
    (full.valid.ctrLo = true ∧ full.valid.ctrHi = true ∧ full.valid.key = true) ∧
    3 ≤ ({ full with alg := 3 } : State).alg.toNat ∧
    (({ full with alg := 2, digits := 11 } : State).alg.toNat ≤ 2 ∧
      10 < ({ full with alg := 2, digits := 11 } : State).digits.toNat) ∧
    (({ full with digits := 10, keyLen := 129 } : State).digits.toNat ≤ 10 ∧
      128 < ({ full with digits := 10, keyLen := 129 } : State).keyLen.toNat) ∧
    (AlgIs full .sha1 ∧ 1 ≤ full.digits.toNat ∧ full.digits.toNat ≤ 10 ∧ full.keyLen.toNat ≤ 128) := by
  unfold AlgIs; decide

theorem test_witness_TotpResult :
    let late := { full with alg := 1, digits := 1, keyLen := 128, t0Lo := 59 }
    State.reset.valid.timeLo = false ∧ (writeReg State.reset .timeLo 5).valid.timeHi = false ∧
    (full.valid.timeLo = true ∧ full.valid.timeHi = true ∧ full.valid.key = true) ∧
    ({ full with period := 0 } : State).periodSeconds ≤ 0 ∧
    (0 < ({ full with t0Lo := 60 } : State).periodSeconds ∧
      ({ full with t0Lo := 60 } : State).time < ({ full with t0Lo := 60 } : State).t0) ∧
    (0 < late.periodSeconds ∧ late.t0 ≤ late.time ∧ AlgIs late .sha256 ∧ 1 ≤ late.digits.toNat ∧
      late.digits.toNat ≤ 10 ∧ late.keyLen.toNat ≤ 128 ∧ late.valid.key = true) ∧
    ({ late with alg := 3 } : State).alg.toNat = 3 ∧ ({ late with digits := 0 } : State).digits.toNat < 1 ∧
    128 < ({ late with keyLen := 129 } : State).keyLen.toNat := by unfold AlgIs; decide

theorem test_witness_TotpIsHotpAtTheTimeStep :
    (full.t0 = 0 ∧ full.period = 30 ∧ 0 ≤ full.time ∧ full.valid.timeLo = true ∧ full.valid.timeHi = true ∧
     keyed.counter = (full.time / 30).toNat ∧ keyed.valid.ctrLo = true ∧ keyed.valid.ctrHi = true ∧
     keyed.secret = full.secret ∧ keyed.keyLen = full.keyLen ∧ keyed.valid.key = full.valid.key ∧
     keyed.alg = full.alg ∧ keyed.digits = full.digits) ∧
    ∃ t, exec .totp full = .next t ∧ (t.status.errCode == 0 && t.code == 287082) = true :=
  ⟨by decide, exists_of_holdsAfter (p := fun t => t.status.errCode == 0 && t.code == 287082) (by decide +kernel)⟩

theorem test_witness_StepwiseEqualsHotp :
    ∃ t, issued .hotp keyed = .next t ∧ (t.status.errCode == 0 && t.code == 287082) = true :=
  exists_of_holdsAfter (p := fun t => t.status.errCode == 0 && t.code == 287082) (by decide +kernel)

theorem test_witness_StepwiseEqualsTotp :
    ∃ t, issued .totp keyed = .next t ∧ (t.status.errCode == 0 && t.code == 287082) = true :=
  exists_of_holdsAfter (p := fun t => t.status.errCode == 0 && t.code == 287082) (by decide +kernel)

theorem test_witness_OutputInvariants :
    full.otp31.toNat < 2 ^ 31 ∧ ∃ t, exec .reduce full = .next t ∧ (t.status.errCode == 0 && t.code == 42) = true :=
  ⟨by decide, exists_of_holdsAfter (p := fun t => t.status.errCode == 0 && t.code == 42) (by decide)⟩

theorem test_witness_SmallestErrorCodeWins : IllegalWord (running full 0x0000010F []).pending := by
  unfold IllegalWord; decide

theorem test_witness_CommandFrame :
    (∃ t, exec .ser full = .next t ∧ (t.status.errCode == 0) = true) ∧
    (∃ t, exec .reduce State.reset = .next t ∧ (t.status.errCode == 2) = true) ∧
    writes .ser .ctrLo = false ∧ Reg.ctrLo ≠ .status ∧ Reg.ctrLo ≠ .valid ∧ Instr.ser ≠ .clear :=
  ⟨exists_of_holdsAfter (p := fun t => t.status.errCode == 0) (by decide),
    exists_of_holdsAfter (p := fun t => t.status.errCode == 2) (by decide), by decide, by decide, by decide, by decide⟩

theorem test_witness_ResultsDependOnNamedInputsOnly :
    sameInputs .reduce full { full with alg := 3, keyLen := 200, period := 0, ctrLo := 9 } ∧
    (∃ t, exec .reduce full = .next t ∧ (t.status.errCode == 0) = true) ∧
    (∃ t, exec .reduce { full with alg := 3, keyLen := 200, period := 0, ctrLo := 9 } = .next t ∧
      (t.status.errCode == 0) = true) ∧ writes .reduce .code = true :=
  ⟨⟨rfl, rfl, rfl⟩, exists_of_holdsAfter (p := fun t => t.status.errCode == 0) (by decide),
    exists_of_holdsAfter (p := fun t => t.status.errCode == 0) (by decide), rfl⟩

theorem test_witness_KeyBytesBeyondKeylenAreUnread :
    (∀ j : Fin 128, j.val < full.keyLen.toNat → (bufferOf 128 (k1 ++ [0xFF]))[j] = full.key[j]) ∧
    bufferOf 128 (k1 ++ [0xFF]) ≠ full.key ∧ Instr.hmac ≠ .clear := by decide +kernel

theorem test_witness_PaddingIsLeast : 0 < 64 ∧ padZeros 64 8 55 = 0 ∧ padZeros 64 8 56 = 63 ∧ padZeros 128 16 111 = 0 ∧
    8 * (List.replicate 55 (0 : Byte)).length < 256 ^ 8 ∧ (List.replicate 64 (0 : Byte)).length = 16 * (32 / 8) ∧
    (List.replicate 128 (0 : Byte)).length = 16 * (64 / 8) := by
  simp only [List.length_replicate]; decide

theorem test_witness_HmacKeyNormalisation :
    Alg.sha1.blockBytes < (List.replicate 65 (0 : Byte)).length ∧
    (List.replicate 63 (0 : Byte)).length < Alg.sha1.blockBytes := by decide

theorem test_witness_RegisterMap : 0x17C % 4 = 0 ∧ regAt 0x17C = some (.key 31) ∧ 0xFFC % 4 = 0 ∧ 0xFFC < 0x1000 ∧
    regAt 0xFFC = none ∧ regAt 0x06C = none ∧ regAt 0x0FC = none := by decide

theorem test_witness_ReadsHaveNoSideEffect :
    let s := { full with inputs := [hostRd (.key 0)] }
    s.rst = false ∧ (BusAddr.window 0x100).windowOffset = some (Reg.key 0).byteOffset ∧
    s.inputs = .access (.read .w32 (.window 0x100)) :: [] ∧ (Reg.key 0).accessType = .wo ∧
    ({ full with inputs := [.probe (.read .w32 (.window 0x17C))] } : State).inputs =
      .probe (.read .w32 (.window 0x17C)) :: [] ∧
    (BusAddr.window 0x17C).windowOffset = some (Reg.key 31).byteOffset := by decide

theorem test_witness_WritesTakeEffect :
    let s := { full with inputs := [hostWr .period 60] }
    s.rst = false ∧ (BusAddr.window 0x018).windowOffset = some Reg.period.byteOffset ∧
    s.inputs = .access (.write .w32 (.window 0x018) 60) :: [] ∧
    ({ full with inputs := [.probe (.write .w32 (.window 0x018) 60)] } : State).inputs =
      .probe (.write .w32 (.window 0x018) 60) :: [] := by decide

theorem test_witness_WriteEffects : readOnly .otp31 = true ∧ full.status.busy = false ∧
    (accepted full 3).status.busy = true ∧ blockedWhenBusy .ctrLo = true := by decide

theorem test_witness_BusyBlocksInputWrites : (accepted full 3).status.busy = true ∧ blockedWhenBusy .cmd = true ∧
    blockedWhenBusy (.key 31) = true ∧ readOnly .id = true ∧ (0x0000000A : Word).getLsbD 3 = true := by decide

theorem test_witness_HostStepsWhileBusyChangeOnlyCtrlAndStatus :
    (accepted full 3).status.busy = true ∧
    (∃ t, deliver (accepted full 3) (.access (.write .w32 (.window 0x030) 5)) = .next t ∧
      (t.status.ovr && t.ctrLo == 1) = true) ∧
    (∃ t, deliver (accepted full 3) (.probe (.write .w32 (.window 0x004) 1)) = .next t ∧ t.ctrlIe = true) :=
  ⟨rfl, exists_of_holdsAfter (p := fun t => t.status.ovr && t.ctrLo == 1) (by decide),
    exists_of_holdsAfter (p := fun t => t.ctrlIe) (by decide)⟩

theorem test_witness_OverrunStaysUntilCleared :
    (overrun full).status.ovr = true ∧
    (∃ t, step { overrun full with inputs := [hostWr .status 8] } = .next t ∧ (!t.status.ovr) = true) ∧
    (∃ t, step { overrun full with inputs := [.rst true] } = .next t ∧ (!t.status.ovr) = true) :=
  ⟨rfl, exists_of_holdsAfter (p := fun t => !t.status.ovr) (by decide),
    exists_of_holdsAfter (p := fun t => !t.status.ovr) (by decide)⟩

theorem test_witness_WritesReadBack : full.status.busy = false ∧ Reg.key 3 ≠ .cmd ∧ Reg.key 3 ≠ .status ∧
    Reg.ctrHi ≠ Reg.key 3 ∧ Reg.ctrHi ≠ .valid := by decide

theorem test_witness_BufferLaneOrder : full.status.busy = false := by decide

theorem test_witness_StatusAndValidWords : 0 < 32 ∧ 31 < 32 := by decide

theorem test_witness_BusErrorChangesNoState :
    full.rst = false ∧ (BusAddr.window 0xFFF).windowOffset = some 0xFFF ∧ 0xFFF % 4 ≠ 0 ∧
    (BusAddr.window 0x04C).windowOffset = some 0x04C ∧ regAt 0x04C = none ∧
    (BusAddr.window 0).windowOffset = some 0 ∧ (Access.read .w8 (.window 0)).width ≠ .w32 := by decide

theorem test_witness_HostStepsNeverRevealTheKey :
    (∃ t, deliver full (.access (.read .w32 (.window 0x100))) = .next t ∧ (t.reply == some (.data 0)) = true) ∧
    deliver full (.access (.read .w32 (.window 0x180))) = .fault (.busError 0x180 .unmapped) ∧
    (∀ level, Event.rst level ≠ .engine) :=
  ⟨exists_of_holdsAfter (p := fun t => t.reply == some (.data 0)) (by decide), rfl, fun _ => by decide +revert⟩

theorem test_witness_ValidBitsAreOnlyClearedByClearOrReset :
    full.valid.toWord.getLsbD 0 = true ∧ (accepted full 3).status.busy = true ∧
    (running full 0x0F [.engine]).rst = false ∧ decode (running full 0x0F [.engine]).pending = .ok .clear ∧
    (∃ t, step (running full 0x0F [.engine]) = .next t ∧ (!t.valid.toWord.getLsbD 0) = true) ∧
    (∃ t, step (running full 0x00 [.rst true]) = .next t ∧ (!t.valid.toWord.getLsbD 0) = true) :=
  ⟨by decide, rfl, rfl, rfl, exists_of_holdsAfter (p := fun t => !t.valid.toWord.getLsbD 0) (by decide),
    exists_of_holdsAfter (p := fun t => !t.valid.toWord.getLsbD 0) (by decide)⟩

theorem test_witness_InterruptLine :
    (∃ t, exec .nop { full with ctrlIe := true } = .next t ∧ t.irq = true) ∧
    full.status.busy = false ∧ (0x00000002 : Word).getLsbD 1 = true ∧ (accepted full 3).status.busy = true ∧
    blockedWhenBusy .ctrLo = true :=
  ⟨exists_of_holdsAfter (p := fun t => t.irq) (by decide), rfl, by decide, rfl, rfl⟩

theorem test_witness_ResetEvent :
    (running full 8 [.rst true]).inputs = .rst true :: [] ∧
    (({ full with rst := true, inputs := [.rst false] } : State).rst = true ∧
      ({ full with rst := true, inputs := [.rst false] } : State).inputs = .rst false :: []) ∧
    ({ full with rst := true, inputs := [.engine] } : State).inputs = .engine :: [] := by decide

theorem test_witness_AccessDuringResetIsStuck : ({ State.reset with rst := true } : State).rst = true ∧
    (BusAddr.window 0x008).windowOffset = some 0x008 := by decide

/-- A sound state that is not the reset state, with a command to run. -/
theorem test_witness_StepKeepsSoundness :
    (running keyed 1 []).Inv ∧ ∃ t, step (running keyed 1 []) = .next t ∧ (t.valid.cbuf && t.status.done) = true :=
  ⟨⟨by decide, by decide, by decide, by decide, by decide, by decide⟩,
    exists_of_holdsAfter (p := fun t => t.valid.cbuf && t.status.done) (by decide)⟩

theorem test_witness_CompletionIsIndependentOfHostSteps :
    let accesses : List Access := [.write .w32 (.window 0x030) 5, .write .w32 (.window 0x008) 2,
      .write .w32 (.window 0x004) 1, .read .w8 (.window 0x04C)]
    let s := running full 1 (accesses.map Event.probe)
    s.rst = false ∧ s.status.busy = true ∧ (∀ a ∈ accesses, a.busAddr.windowOffset ≠ none) ∧
    s.inputs = accesses.map Event.probe := by decide

/-- Sound states on both sides of the two valid bits. -/
theorem test_witness_RegisterWords :
    let s := { full with code := 42, codeLen := 6, digbuf := bufferOf 12 [0x30, 0x30, 0x30, 0x30, 0x34, 0x32]
                         valid := { full.valid with code := true } }
    31 < 32 ∧ keyed.Inv ∧ keyed.valid.hs = false ∧ keyed.valid.code = false ∧
    s.Inv ∧ s.valid.hs = true ∧ s.valid.code = true :=
  ⟨by decide, ⟨by decide, by decide, by decide, by decide, by decide, by decide⟩, rfl, rfl,
    ⟨by decide, by decide, by decide, by decide, by decide, by decide⟩, rfl, rfl⟩

end Sys2Proof.Tests
end

section
/-! SUPPORT. A command's outcome and results depend on the inputs 30_encoding.md R102 names for it and on nothing else
(00_scope.md R12). Every result is committed from values computed out of those inputs, so two runs that agree on them
take the same branch and commit the same words. -/

open Sys2Proof Sys2Proof.Machine Sys2Proof.Claims

namespace Sys2Proof.Proofs

/-- Every word that `i` writes reads the same in `t` and `t'`. -/
def SameWrites (i : Instr) (t t' : State) : Prop := ∀ r : Reg, writes i r = true → readReg t r = readReg t' r

/-- Two answers of the operation of `i` that the host cannot tell apart by the words `i` writes: the same error, or two
states in which those words read the same. -/
inductive SameResult (i : Instr) : Except ErrCode State → Except ErrCode State → Prop
  | error (e : ErrCode) : SameResult i (.error e) (.error e)
  | ok {t t' : State} (h : SameWrites i t t') : SameResult i (.ok t) (.ok t')

/-! ### STATUS and the completion -/

theorem ne_status_of_writes {i : Instr} {r : Reg} (h : writes i r = true) : r ≠ .status := by
  rintro rfl
  cases i <;> exact Bool.noConfusion h

theorem readReg_setStatus (s : State) (st : Status) {r : Reg} (h : r ≠ .status) :
    readReg (s.setStatus st) r = readReg s r := by
  cases r with
  | status => exact absurd rfl h
  | _ => rfl

theorem SameWrites.succeed {i : Instr} {t t' : State} (h : SameWrites i t t') :
    SameWrites i t.succeed t'.succeed := by
  intro r hr
  have hst := ne_status_of_writes hr
  rw [State.succeed_eq, State.succeed_eq, readReg_setStatus _ _ hst, readReg_setStatus _ _ hst]
  exact h r hr

/-! ### What a commit writes does not depend on the state it is made at -/

theorem sameWrites_nop (s s' : State) : SameWrites .nop s s' := by
  intro r hr
  cases r <;> exact Bool.noConfusion hr

theorem sameWrites_commitCbuf (s s' : State) (b : List Byte) :
    SameWrites .ser (s.commitCbuf b) (s'.commitCbuf b) := by
  intro r hr
  cases r <;> simp [writes, readReg] at hr ⊢

theorem sameWrites_commitCounter (s s' : State) (c : Nat) :
    SameWrites .tstep (s.commitCounter c) (s'.commitCounter c) := by
  intro r hr
  cases r <;> simp [writes, readReg] at hr ⊢

theorem sameWrites_commitHs (s s' : State) (h : List Byte) :
    SameWrites .hmac (s.commitHs h) (s'.commitHs h) := by
  intro r hr
  cases r <;> simp [writes, readReg] at hr ⊢

theorem sameWrites_commitOtp (s s' : State) (o : BitVec 4) (x : Word) :
    SameWrites .trunc (s.commitOtp o x) (s'.commitOtp o x) := by
  intro r hr
  cases r <;> simp [writes, readReg] at hr ⊢

theorem sameWrites_commitReduced (s s' : State) (otp d : Nat) :
    SameWrites .reduce (s.commitReduced otp d) (s'.commitReduced otp d) := by
  intro r hr
  cases r <;> simp [writes, readReg] at hr ⊢

/-- The four commits of a fused command (43_fused_control.md R233). -/
theorem sameWrites_commitAll (s s' : State) (b h : List Byte) (o : BitVec 4) (x : Word) (otp d : Nat) :
    SameWrites .hotp ((((s.commitCbuf b).commitHs h).commitOtp o x).commitReduced otp d)
      ((((s'.commitCbuf b).commitHs h).commitOtp o x).commitReduced otp d) := by
  intro r hr
  cases r <;> simp [writes, readReg] at hr ⊢

/-- TOTP writes COUNTER, as TSTEP does, and what HOTP writes (R234). -/
theorem writes_totp_cases {r : Reg} (h : writes .totp r = true) : writes .tstep r = true ∨ writes .hotp r = true := by
  cases r <;> simp [writes] at h ⊢

/-- The commit of COUNTER changes no word that HOTP writes. -/
theorem readReg_commitCounter (t : State) (c : Nat) {r : Reg} (h : writes .hotp r = true) :
    readReg (t.commitCounter c) r = readReg t r := by
  cases r <;> simp [writes, readReg] at h ⊢

theorem SameWrites.commitCounter {t t' : State} (h : SameWrites .hotp t t') (c : Nat) :
    SameWrites .totp (t.commitCounter c) (t'.commitCounter c) := by
  intro r hr
  obtain htstep | hhotp := writes_totp_cases hr
  · exact sameWrites_commitCounter t t' c r htstep
  · rw [readReg_commitCounter t c hhotp, readReg_commitCounter t' c hhotp]
    exact h r hhotp

theorem sameWrites_zeroize (s s' : State) : SameWrites .clear s.zeroize s'.zeroize := by
  intro r hr
  cases r <;> simp [writes, readReg] at hr ⊢

/-! ### The operands, as functions of the registers that hold them -/

section Operands

variable {s s' : State}

theorem keyTooLong_congr (h : s.keyLen = s'.keyLen) : s.keyTooLong = s'.keyTooLong := by
  simp only [State.keyTooLong, h]

theorem digitCount_congr (h : s.digits = s'.digits) : s.digitCount? = s'.digitCount? := by
  simp only [State.digitCount?, h]

theorem periodSeconds_congr (h : s.period = s'.period) : s.periodSeconds = s'.periodSeconds := by
  simp only [State.periodSeconds, h]

theorem hash_congr (hhs : s.hs = s'.hs) (hlen : s.hsLen = s'.hsLen) : s.hash = s'.hash := by
  simp only [State.hash, hhs, hlen]

theorem counterValid_congr (hlo : s.valid.ctrLo = s'.valid.ctrLo) (hhi : s.valid.ctrHi = s'.valid.ctrHi) :
    s.valid.counter = s'.valid.counter := by
  simp only [Valid.counter, hlo, hhi]

theorem timeValid_congr (hlo : s.valid.timeLo = s'.valid.timeLo) (hhi : s.valid.timeHi = s'.valid.timeHi) :
    s.valid.time = s'.valid.time := by
  simp only [Valid.time, hlo, hhi]

end Operands

/-! ### Each operation: rewrite the operands of one run to the other's, then both take the same branch -/

section Operations

variable {s s' : State}

theorem runSer_sameResult (h : sameInputs .ser s s') : SameResult .ser (runSer s) (runSer s') := by
  obtain ⟨hctr, hlo, hhi⟩ := h
  rw [runSer, runSer, counterValid_congr hlo hhi, hctr]
  split
  · exact .error _
  · exact .ok (sameWrites_commitCbuf s s' _)

theorem runTstep_sameResult (h : sameInputs .tstep s s') : SameResult .tstep (runTstep s) (runTstep s') := by
  obtain ⟨htime, ht0, hper, hlo, hhi⟩ := h
  rw [runTstep, runTstep, timeValid_congr hlo hhi, htime, ht0, periodSeconds_congr hper]
  split
  · exact .error _
  · cases timeStep s'.time s'.t0 s'.periodSeconds with
    | error e => exact .error e
    | ok c => exact .ok (sameWrites_commitCounter s s' c)

theorem runHmac_sameResult (h : sameInputs .hmac s s') : SameResult .hmac (runHmac s) (runHmac s') := by
  obtain ⟨hcbuf, hsec, hlen, halg, hvc, hvk⟩ := h
  rw [runHmac, runHmac, hvc, hvk, halg, keyTooLong_congr hlen, hsec, hcbuf]
  split
  · exact .error _
  · cases algOfCode s'.alg with
    | none => exact .error _
    | some a =>
      cases s'.keyTooLong with
      | true => exact .error _
      | false => exact .ok (sameWrites_commitHs s s' _)

theorem runTrunc_sameResult (h : sameInputs .trunc s s') : SameResult .trunc (runTrunc s) (runTrunc s') := by
  obtain ⟨hhs, hlen, hv⟩ := h
  rw [runTrunc, runTrunc, hv, hash_congr hhs hlen]
  split
  · exact .error _
  · cases truncate s'.hash with
    | error e => exact .error e
    | ok p => exact .ok (sameWrites_commitOtp s s' p.1 p.2)

theorem runReduce_sameResult (h : sameInputs .reduce s s') :
    SameResult .reduce (runReduce s) (runReduce s') := by
  obtain ⟨hotp, hdig, hv⟩ := h
  rw [runReduce, runReduce, hv, digitCount_congr hdig, hotp]
  split
  · exact .error _
  · cases s'.digitCount? with
    | none => exact .error _
    | some d => exact .ok (sameWrites_commitReduced s s' _ d)

/-- The part HOTP and TOTP share: for one counter value it reads the secret, KEYLEN and CONFIG only. -/
theorem computeCode_sameResult (hsec : s.secret = s'.secret) (hlen : s.keyLen = s'.keyLen) (halg : s.alg = s'.alg)
    (hdig : s.digits = s'.digits) (c : Nat) : SameResult .hotp (computeCode s c) (computeCode s' c) := by
  rw [computeCode, computeCode, halg, digitCount_congr hdig, keyTooLong_congr hlen, hsec]
  cases algOfCode s'.alg with
  | none => exact .error _
  | some a =>
    cases s'.digitCount? with
    | none => exact .error _
    | some d =>
      cases s'.keyTooLong with
      | true => exact .error _
      | false =>
        dsimp only
        cases truncate (hmac a s'.secret (serializeCounter c)) with
        | error e => exact .error e
        | ok p => exact .ok (sameWrites_commitAll s s' _ _ p.1 p.2 _ d)

theorem runHotp_sameResult (h : sameInputs .hotp s s') : SameResult .hotp (runHotp s) (runHotp s') := by
  obtain ⟨hctr, hsec, hlen, halg, hdig, hlo, hhi, hvk⟩ := h
  rw [runHotp, runHotp, counterValid_congr hlo hhi, hvk, hctr]
  split
  · exact .error _
  · exact computeCode_sameResult hsec hlen halg hdig _

theorem runTotp_sameResult (h : sameInputs .totp s s') : SameResult .totp (runTotp s) (runTotp s') := by
  obtain ⟨htime, ht0, hper, hsec, hlen, halg, hdig, hlo, hhi, hvk⟩ := h
  rw [runTotp, runTotp, timeValid_congr hlo hhi, hvk, htime, ht0, periodSeconds_congr hper]
  split
  · exact .error _
  · cases timeStep s'.time s'.t0 s'.periodSeconds with
    | error e => exact .error e
    | ok c =>
      have hcode := computeCode_sameResult hsec hlen halg hdig c
      dsimp only
      generalize computeCode s c = x, computeCode s' c = x' at hcode ⊢
      cases hcode with
      | error e => exact .error e
      | ok hw => exact .ok (hw.commitCounter c)

theorem runOf_sameResult {i : Instr} (h : sameInputs i s s') : SameResult i (runOf i s) (runOf i s') := by
  cases i with
  | nop => exact .ok (sameWrites_nop s s')
  | ser => exact runSer_sameResult h
  | tstep => exact runTstep_sameResult h
  | hmac => exact runHmac_sameResult h
  | trunc => exact runTrunc_sameResult h
  | reduce => exact runReduce_sameResult h
  | hotp => exact runHotp_sameResult h
  | totp => exact runTotp_sameResult h
  | clear => exact .ok (sameWrites_zeroize s s')

end Operations

/-- Settles O29: both runs end the same way before the shared completion, which adds only STATUS. -/
theorem resultsDependOnNamedInputsOnly : Obligations.ResultsDependOnNamedInputsOnly := by
  intro i s s' t t' hin ht ht'
  have hrun := runOf_sameResult hin
  rw [exec_eq_finish] at ht ht'
  generalize runOf i s = x, runOf i s' = x' at hrun ht ht'
  cases hrun with
  | error e =>
    cases ht
    cases ht'
    exact ⟨rfl, fun h => absurd h e.code_ne_zero⟩
  | ok hw =>
    cases ht
    cases ht'
    exact ⟨rfl, fun _ => hw.succeed⟩

end Sys2Proof.Proofs
end

section
/-! SUPPORT. What a command and a host access can do to the state, said once, and the invariant that every step keeps:
each commit, each write of a word and each reset leaves a sound state sound. -/

open Sys2Proof Sys2Proof.Machine Sys2Proof.Claims

namespace Sys2Proof.Proofs

/-! ### What a successful operation commits -/

/-- The states that a successful operation of each command can leave at `s`, before the shared completion: the commits
of its row of 30_encoding.md R102, with what the checks have shown of the values committed. -/
inductive Commits (s : State) : Instr → State → Prop
  | nop : Commits s .nop s
  | ser (b : List Byte) : Commits s .ser (s.commitCbuf b)
  | tstep (c : Nat) : Commits s .tstep (s.commitCounter c)
  | hmac (a : Alg) (k m : List Byte) : Commits s .hmac (s.commitHs (hmac a k m))
  | trunc {h : List Byte} {o : BitVec 4} {x : Word} (ht : truncate h = .ok (o, x)) :
      Commits s .trunc (s.commitOtp o x)
  | reduce {d : Nat} (hd : 1 ≤ d ∧ d ≤ 10) : Commits s .reduce (s.commitReduced s.otp31.toNat d)
  | hotp (b : List Byte) (a : Alg) (k m : List Byte) {o : BitVec 4} {x : Word} {d : Nat}
      (hctr : s.valid.ctrLo = true ∧ s.valid.ctrHi = true) (ht : truncate (Machine.hmac a k m) = .ok (o, x))
      (hd : 1 ≤ d ∧ d ≤ 10) :
      Commits s .hotp ((((s.commitCbuf b).commitHs (Machine.hmac a k m)).commitOtp o x).commitReduced x.toNat d)
  | totp (c : Nat) (b : List Byte) (a : Alg) (k m : List Byte) {o : BitVec 4} {x : Word} {d : Nat}
      (ht : truncate (Machine.hmac a k m) = .ok (o, x)) (hd : 1 ≤ d ∧ d ≤ 10) :
      Commits s .totp
        (((((s.commitCbuf b).commitHs (Machine.hmac a k m)).commitOtp o x).commitReduced x.toNat d).commitCounter c)
  | clear : Commits s .clear s.zeroize

/-- A fused computation that succeeds has passed every check and commits the four stages. -/
theorem computeCode_ok {s t : State} {c : Nat} (h : computeCode s c = .ok t) :
    ∃ a o x d, truncate (hmac a s.secret (serializeCounter c)) = .ok (o, x) ∧ (1 ≤ d ∧ d ≤ 10) ∧
      t = (((s.commitCbuf (serializeCounter c)).commitHs
        (hmac a s.secret (serializeCounter c))).commitOtp o x).commitReduced x.toNat d := by
  obtain ⟨-, he⟩ | ⟨a, -, ⟨-, he⟩ | ⟨d, hd, ⟨-, he⟩ | ⟨-, ⟨e, -, he⟩ | ⟨o, x, ht, he⟩⟩⟩⟩ := computeCode_cases s c <;>
    cases he.symm.trans h
  exact ⟨a, o, x, d, ht, ((digitCount_eq_some s d).mp hd).2, rfl⟩

theorem runSer_commits {s t : State} (h : runSer s = .ok t) : Commits s .ser t := by
  obtain ⟨-, he⟩ | ⟨-, he⟩ := runSer_cases s <;> cases he.symm.trans h
  exact .ser _

theorem runTstep_commits {s t : State} (h : runTstep s = .ok t) : Commits s .tstep t := by
  obtain ⟨-, he⟩ | ⟨-, ⟨e, -, he⟩ | ⟨c, -, he⟩⟩ := runTstep_cases s <;> cases he.symm.trans h
  exact .tstep c

theorem runHmac_commits {s t : State} (h : runHmac s = .ok t) : Commits s .hmac t := by
  obtain ⟨-, he⟩ | ⟨-, ⟨-, he⟩ | ⟨a, -, ⟨-, he⟩ | ⟨-, he⟩⟩⟩ := runHmac_cases s <;> cases he.symm.trans h
  exact .hmac a _ _

theorem runTrunc_commits {s t : State} (h : runTrunc s = .ok t) : Commits s .trunc t := by
  obtain ⟨-, he⟩ | ⟨-, ⟨e, -, he⟩ | ⟨o, x, ht, he⟩⟩ := runTrunc_cases s <;> cases he.symm.trans h
  exact .trunc ht

theorem runReduce_commits {s t : State} (h : runReduce s = .ok t) : Commits s .reduce t := by
  obtain ⟨-, he⟩ | ⟨-, ⟨-, he⟩ | ⟨d, hd, he⟩⟩ := runReduce_cases s <;> cases he.symm.trans h
  exact .reduce ((digitCount_eq_some s d).mp hd).2

theorem runHotp_commits {s t : State} (h : runHotp s = .ok t) : Commits s .hotp t := by
  obtain ⟨-, he⟩ | ⟨hv, he⟩ := runHotp_cases s
  · cases he.symm.trans h
  · obtain ⟨a, o, x, d, ht, hd, rfl⟩ := computeCode_ok (he.symm.trans h)
    obtain ⟨hctr, -⟩ := Bool.and_eq_true_iff.mp hv
    exact .hotp _ a _ _ (Bool.and_eq_true_iff.mp hctr) ht hd

theorem runTotp_commits {s t : State} (h : runTotp s = .ok t) : Commits s .totp t := by
  obtain ⟨-, he⟩ | ⟨-, ⟨e, -, he⟩ | ⟨c, -, ⟨e, -, he⟩ | ⟨u, hu, he⟩⟩⟩ := runTotp_cases s <;> cases he.symm.trans h
  obtain ⟨a, o, x, d, ht, hd, rfl⟩ := computeCode_ok hu
  exact .totp c _ a _ _ ht hd

theorem runOf_commits {i : Instr} {s t : State} (h : runOf i s = .ok t) : Commits s i t := by
  cases i with
  | nop => cases h; exact .nop
  | ser => exact runSer_commits h
  | tstep => exact runTstep_commits h
  | hmac => exact runHmac_commits h
  | trunc => exact runTrunc_commits h
  | reduce => exact runReduce_commits h
  | hotp => exact runHotp_commits h
  | totp => exact runTotp_commits h
  | clear => cases h; exact .clear

/-- What a completion of a legal command can leave: the error alone, or what its operation commits. -/
theorem exec_next {i : Instr} {s t : State} (h : exec i s = .next t) :
    (∃ e, t = s.fail e) ∨ ∃ u, Commits s i u ∧ t = u.succeed := by
  rw [exec_eq_finish] at h
  obtain ⟨u, hu, hf⟩ | ⟨e, -, hf⟩ := finish_cases s (runOf i s) <;> cases hf.symm.trans h
  · exact .inr ⟨u, runOf_commits hu, rfl⟩
  · exact .inl ⟨e, rfl⟩

/-! ### The values that the units produce -/

theorem sha2Digest_length {w : Nat} (v : Sha2State w) : (sha2Digest v).length = 8 * (w / 8) := by
  simp only [sha2Digest, List.flatMap_cons, List.flatMap_nil, List.length_append, beBytes_length, List.length_nil]
  omega

theorem hashWith_length (a : Alg) (m : List Byte) : (hashWith a m).length = a.outputBytes := by
  cases a with
  | sha1 => simp [hashWith, sha1, Alg.outputBytes]
  | sha256 => exact sha2Digest_length _
  | sha512 => exact sha2Digest_length _

/-- A keyed hash is a hash of some string, so it has the algorithm's output length (41_hmac.md R140, R141). -/
theorem hmac_length (a : Alg) (k m : List Byte) : (hmac a k m).length = a.outputBytes := hashWith_length a _

/-- The masked first byte keeps bit 31 of a truncation clear (42_truncate_reduce.md R200). -/
theorem truncWindow_lt (h : List Byte) (n : Nat) : (truncWindow h n).toNat < 2 ^ 31 := by
  have hmask : (byteAt h n &&& 0x7F).toNat ≤ 127 := Nat.and_le_right
  have hbyte (j : Nat) : (byteAt h j).toNat < 256 := (byteAt h j).isLt
  have hb1 := hbyte (n + 1)
  have hb2 := hbyte (n + 2)
  have hb3 := hbyte (n + 3)
  simp only [truncWindow, BitVec.toNat_or, BitVec.toNat_shiftLeft, BitVec.toNat_setWidth, Nat.shiftLeft_eq]
  refine Nat.or_lt_two_pow (Nat.or_lt_two_pow (Nat.or_lt_two_pow ?_ ?_) ?_) ?_ <;> omega

theorem truncate_ok_lt {h : List Byte} {o : BitVec 4} {x : Word} (ht : truncate h = .ok (o, x)) :
    x.toNat < 2 ^ 31 := by
  obtain ⟨-, -, rfl⟩ := (truncate_ok_iff h o x).mp ht
  exact truncWindow_lt _ _

/-! ### Each update keeps a sound state sound

While `rst` is deasserted the part about a held reset says nothing, and an update touches the part of the registers it
writes; the other parts are those of the state before. -/

theorem resetSound_of_rst_false {s : State} (h : s.rst = false) : s.ResetSound :=
  fun hr => absurd hr (by simp [h])

/-- With every derived register at its reset value and no valid bit set, only STATUS and a held reset matter. -/
theorem inv_of_eq_zeroize {s : State} (hst : s.status.Sound) (hreset : s.ResetSound) (hz : s = s.zeroize) : s.Inv := by
  refine ⟨hst, ?_, ?_, ?_, ?_, hreset⟩ <;> rw [hz]
  · exact ⟨nofun, fun _ => rfl, fun i _ => zeroBuffer_getElem 64 i i.isLt⟩
  · exact ⟨by simp, fun _ => ⟨rfl, rfl⟩⟩
  · exact ⟨by simp, nofun, fun _ => ⟨rfl, rfl, rfl⟩⟩
  · exact ⟨fun _ => rfl, fun _ => rfl, fun _ => rfl, fun _ => rfl, fun _ => rfl, fun _ => rfl⟩

section Updates

variable {s : State} (h : s.Inv) (hr : s.rst = false)
include h hr

theorem inv_setStatus {st : Status} (hst : st.Sound) : (s.setStatus st).Inv :=
  ⟨hst, h.hash, h.otp, h.code, h.unwritten, resetSound_of_rst_false hr⟩

theorem inv_setReply (r : BusReply) : (s.setReply r).Inv :=
  ⟨h.status, h.hash, h.otp, h.code, h.unwritten, resetSound_of_rst_false hr⟩

theorem inv_commitCounter (c : Nat) : (s.commitCounter c).Inv := by
  obtain ⟨hkey, -, -, htime⟩ := h.unwritten
  exact ⟨h.status, h.hash, h.otp, h.code, ⟨hkey, nofun, nofun, htime⟩, resetSound_of_rst_false hr⟩

theorem inv_commitCbuf (b : List Byte) : (s.commitCbuf b).Inv := by
  obtain ⟨hkey, hlo, hhi, htlo, hthi, -⟩ := h.unwritten
  exact ⟨h.status, h.hash, h.otp, h.code, ⟨hkey, hlo, hhi, htlo, hthi, nofun⟩, resetSound_of_rst_false hr⟩

theorem inv_commitHs (a : Alg) (k m : List Byte) : (s.commitHs (hmac a k m)).Inv := by
  have hlen : (s.commitHs (hmac a k m)).hsLen.toNat = a.outputBytes := by
    rw [State.commitHs_hsLen, hmac_length]
    cases a <;> rfl
  have htail (i : Fin 64) (hi : a.outputBytes ≤ i.val) : (s.commitHs (hmac a k m)).hs[i] = 0 := by
    rw [← hmac_length a k m] at hi
    simp [List.getD_eq_getElem?_getD, hi]
  refine ⟨h.status, ⟨fun _ => ?_, nofun, ?_⟩, h.otp, h.code, h.unwritten, resetSound_of_rst_false hr⟩
  · rw [hlen]
    cases a <;> decide
  · rwa [hlen]

theorem inv_commitOtp {o : BitVec 4} {x : Word} (hx : x.toNat < 2 ^ 31) : (s.commitOtp o x).Inv :=
  ⟨h.status, h.hash, ⟨hx, nofun⟩, h.code, h.unwritten, resetSound_of_rst_false hr⟩

theorem inv_commitReduced {otp d : Nat} (hotp : otp < 2 ^ 31) (hd : 1 ≤ d ∧ d ≤ 10) :
    (s.commitReduced otp d).Inv := by
  have hmod : otp % 10 ^ d < 10 ^ d := Nat.mod_lt _ (by positivity)
  have hcode : (s.commitReduced otp d).code.toNat = otp % 10 ^ d := by
    have hle := Nat.mod_le otp (10 ^ d)
    rw [State.commitReduced_eq, State.commitCode_code, reduceCode, BitVec.toNat_ofNat]
    omega
  have hlen : (s.commitReduced otp d).codeLen.toNat = d := by
    rw [State.commitReduced_eq, State.commitCode_codeLen, BitVec.toNat_ofNat]
    omega
  refine ⟨h.status, h.hash, h.otp, ⟨?_, fun _ => ?_, nofun⟩, h.unwritten, resetSound_of_rst_false hr⟩
  · rw [hcode]
    exact (Nat.mod_le _ _).trans_lt hotp
  · rw [hcode, hlen]
    exact ⟨hd.1, hd.2, hmod, rfl⟩

theorem inv_zeroize : s.zeroize.Inv := inv_of_eq_zeroize h.status (resetSound_of_rst_false hr) rfl

theorem inv_setKey (key : Buffer 128) : State.Inv { s with key := key } :=
  ⟨h.status, h.hash, h.otp, h.code, h.unwritten, resetSound_of_rst_false hr⟩

theorem inv_accept (w : Word) : (s.accept w).Inv :=
  ⟨⟨fun _ => ⟨rfl, rfl, rfl⟩, by simp, nofun, by simp⟩, h.hash, h.otp, h.code, h.unwritten,
    resetSound_of_rst_false hr⟩

end Updates

theorem completed_sound (st : Status) {e : BitVec 4} (he : e.toNat ≤ 8) : (st.completed e).Sound :=
  ⟨nofun, by simp, fun _ => rfl, he⟩

theorem overrun_sound {st : Status} (h : st.Sound) : st.overrun.Sound := h

/-- Bit 1 clears DONE, ERR and ERRCODE together and bit 3 none of the three (10_state.md R23). -/
theorem written_sound {st : Status} (h : st.Sound) (v : Word) : (st.written v).Sound := by
  rw [Status.written_eq]
  cases v.getLsbD 1 with
  | true => exact ⟨fun _ => ⟨rfl, rfl, rfl⟩, by simp, nofun, by simp⟩
  | false => exact h

/-! ### Each step keeps a sound state sound -/

theorem Commits.inv {i : Instr} {s t : State} (hc : Commits s i t) (h : s.Inv) (hr : s.rst = false) : t.Inv := by
  cases hc with
  | nop => exact h
  | ser b => exact inv_commitCbuf h hr b
  | tstep c => exact inv_commitCounter h hr c
  | hmac a k m => exact inv_commitHs h hr a k m
  | trunc ht => exact inv_commitOtp h hr (truncate_ok_lt ht)
  | reduce hd => exact inv_commitReduced h hr h.otp.1 hd
  | hotp b a k m hctr ht hd =>
    have hx := truncate_ok_lt ht
    exact inv_commitReduced (inv_commitOtp (inv_commitHs (inv_commitCbuf h hr b) hr a k m) hr hx) hr hx hd
  | totp c b a k m ht hd =>
    have hx := truncate_ok_lt ht
    exact inv_commitCounter
      (inv_commitReduced (inv_commitOtp (inv_commitHs (inv_commitCbuf h hr b) hr a k m) hr hx) hr hx hd) hr c
  | clear => exact inv_zeroize h hr

theorem Commits.rst {i : Instr} {s t : State} (hc : Commits s i t) : t.rst = s.rst := by
  cases hc <;> simp

theorem inv_exec {i : Instr} {s t : State} (h : s.Inv) (hr : s.rst = false) (ht : exec i s = .next t) : t.Inv := by
  obtain ⟨e, rfl⟩ | ⟨u, hc, rfl⟩ := exec_next ht
  · exact inv_setStatus h hr (completed_sound _ e.code_toNat_le)
  · exact inv_setStatus (hc.inv h hr) (hc.rst.trans hr) (completed_sound _ (by decide))

/-- What the completion of the pending word can be: ILLEGAL_CMD, or the execution of the command it decodes to. -/
theorem completePending_next {s t : State} (h : completePending s = .next t) :
    t = s.fail .illegalCmd ∨ ∃ i, decode s.pending = .ok i ∧ exec i s = .next t := by
  unfold completePending at h
  cases hd : decode s.pending with
  | error e =>
    rw [hd] at h
    cases h
    exact .inl rfl
  | ok i =>
    rw [hd] at h
    exact .inr ⟨i, rfl, h⟩

theorem inv_completePending {s t : State} (h : s.Inv) (hr : s.rst = false) (ht : completePending s = .next t) :
    t.Inv := by
  obtain rfl | ⟨i, -, he⟩ := completePending_next ht
  · exact inv_setStatus h hr (completed_sound _ (by decide))
  · exact inv_exec h hr he

theorem inv_writeInput {s : State} (h : s.Inv) (hr : s.rst = false) (r : Reg) (v : Word) : (writeInput s r v).Inv := by
  have hrst : ∀ t : State, t.rst = s.rst → t.ResetSound := fun t ht => resetSound_of_rst_false (ht.trans hr)
  obtain ⟨hkey, hlo, hhi, htlo, hthi, hcbuf⟩ := h.unwritten
  cases r with
  | cmd => exact inv_accept h hr v
  | config | period | t0Lo | t0Hi => exact ⟨h.status, h.hash, h.otp, h.code, h.unwritten, hrst _ rfl⟩
  | key k => exact inv_setKey h hr _
  | keyLen => exact ⟨h.status, h.hash, h.otp, h.code, ⟨nofun, hlo, hhi, htlo, hthi, hcbuf⟩, hrst _ rfl⟩
  | timeLo => exact ⟨h.status, h.hash, h.otp, h.code, ⟨hkey, hlo, hhi, nofun, hthi, hcbuf⟩, hrst _ rfl⟩
  | timeHi => exact ⟨h.status, h.hash, h.otp, h.code, ⟨hkey, hlo, hhi, htlo, nofun, hcbuf⟩, hrst _ rfl⟩
  | ctrLo => exact ⟨h.status, h.hash, h.otp, h.code, ⟨hkey, nofun, hhi, htlo, hthi, hcbuf⟩, hrst _ rfl⟩
  | ctrHi => exact ⟨h.status, h.hash, h.otp, h.code, ⟨hkey, hlo, nofun, htlo, hthi, hcbuf⟩, hrst _ rfl⟩
  | _ => exact h

theorem inv_writeReg {s : State} (h : s.Inv) (hr : s.rst = false) (r : Reg) (v : Word) : (writeReg s r v).Inv := by
  obtain ⟨-, he⟩ | ⟨-, he⟩ | ⟨-, he⟩ | ⟨-, -, -, -, he⟩ | ⟨-, -, -, -, he⟩ := writeReg_cases s r v <;> rw [he]
  · exact h
  · exact ⟨h.status, h.hash, h.otp, h.code, h.unwritten, resetSound_of_rst_false hr⟩
  · exact inv_setStatus h hr (written_sound h.status v)
  · exact inv_setStatus h hr (overrun_sound h.status)
  · exact inv_writeInput h hr r v

/-- An access answers its reply at the state as it was, or at what a write of one word leaves. -/
theorem hostStep_next {s t : State} {a : Access} (h : hostAccess s a = .next t ∨ hostProbe s a = .next t) :
    s.rst = false ∧ ∃ reply u, t = State.setReply u reply ∧ (u = s ∨ ∃ r v, u = writeReg s r v) := by
  obtain ⟨off, hr, rfl⟩ :
      ∃ off, s.rst = false ∧ t = (busAccess s a off).2.setReply (busAccess s a off).1 := by
    obtain h | h := h
    · obtain ⟨off, -, hr, -, ht⟩ := hostAccess_next h
      exact ⟨off, hr, ht⟩
    · obtain ⟨off, -, hr, ht⟩ := hostProbe_next h
      exact ⟨off, hr, ht⟩
  refine ⟨hr, _, _, rfl, ?_⟩
  obtain hs | ⟨r, v, -, hw⟩ := busAccess_state s a off
  · exact .inl hs
  · exact .inr ⟨r, v, hw⟩

theorem inv_hostStep {s t : State} {a : Access} (h : s.Inv)
    (ht : hostAccess s a = .next t ∨ hostProbe s a = .next t) : t.Inv := by
  obtain ⟨hr, reply, u, rfl, rfl | ⟨r, v, rfl⟩⟩ := hostStep_next ht
  · exact inv_setReply h hr reply
  · exact inv_setReply (inv_writeReg h hr r v) ((writeReg_rst s r v).trans hr) reply

/-- A reset leaves every register at its reset value, a sound state whatever stood before (10_state.md R45). -/
theorem inv_resetTo (s : State) (level : Bool) : (s.resetTo level).Inv := by
  refine inv_of_eq_zeroize ⟨nofun, by simp [State.reset], nofun, by simp [State.reset]⟩ ?_ rfl
  rintro rfl
  rfl

theorem driveReset_cases (s : State) (level : Bool) :
    driveReset s level = s.resetTo level ∨ (level = false ∧ s.rst = false ∧ driveReset s level = s) := by
  unfold driveReset
  cases level <;> cases s.rst <;> simp

theorem inv_engineTurn {s t : State} (h : s.Inv) (ht : engineTurn s = .next t) : t.Inv := by
  obtain ⟨-, he⟩ | ⟨hr, -, he⟩ | ⟨-, -, he⟩ := engineTurn_cases s
  · cases he.symm.trans ht
    exact inv_resetTo s true
  · exact inv_completePending h hr (he.symm.trans ht)
  · cases he.symm.trans ht
    exact h

theorem inv_setInputs {s : State} (h : s.Inv) (es : List Event) : (s.setInputs es).Inv :=
  ⟨h.status, h.hash, h.otp, h.code, h.unwritten, fun hr => congrArg (State.setInputs · es) (h.inReset hr)⟩

theorem inv_deliver {s t : State} {e : Event} (h : s.Inv) (ht : deliver s e = .next t) : t.Inv := by
  cases e with
  | access a => exact inv_hostStep h (.inl ht)
  | probe a => exact inv_hostStep h (.inr ht)
  | engine => exact inv_engineTurn h ht
  | rst level =>
    cases ht
    obtain he | ⟨-, -, he⟩ := driveReset_cases s level <;> rw [he]
    · exact inv_resetTo s level
    · exact h

/-- Settles O54: each kind of event keeps the invariant, and taking it from the list changes no register. -/
theorem stepKeepsSoundness : Obligations.StepKeepsSoundness := by
  intro s t h ht
  cases hin : s.inputs with
  | nil => exact inv_engineTurn h ((step_nil hin).symm.trans ht)
  | cons e es => exact inv_deliver (inv_setInputs h es) ((step_cons hin).symm.trans ht)

/-- Settles O53: the state after reset is a reset's, with the line low. -/
theorem resetIsSound : Obligations.ResetIsSound := inv_resetTo State.reset false

end Sys2Proof.Proofs
end

section
/-! SUPPORT. The words of the window (10_state.md R21 to R45): the bit of each field and of each reserved place, the
values after reset, and what a write reads back. -/

open Sys2Proof Sys2Proof.Machine Sys2Proof.Claims

namespace Sys2Proof.Proofs

/-! ### Fields in a word -/

/-- A field of `w` bits placed at bit `p` of a bus word: its own bits there and 0 elsewhere. -/
theorem getLsbD_placed {w : Nat} (x : BitVec w) (p : Nat) {i : Nat} (hi : i < 32) :
    (x.setWidth 32 <<< p).getLsbD i = if p ≤ i ∧ i < p + w then x.getLsbD (i - p) else false := by
  have hin : i - p < 32 := by omega
  rw [BitVec.getLsbD_shiftLeft, BitVec.getLsbD_setWidth]
  by_cases hp : i < p
  · simp [hp, Nat.not_le.mpr hp]
  · by_cases hw : i < p + w
    · simp [hi, hin, hp, hw, Nat.not_lt.mp hp]
    · simp [hw, BitVec.getLsbD_of_ge x (i - p) (by omega)]

theorem getLsbD_bitAt (n : Nat) (b : Bool) {i : Nat} (hi : i < 32) :
    (bitAt n b).getLsbD i = if i = n then b else false := by
  rw [bitAt, getLsbD_placed _ _ hi]
  by_cases h : i = n
  · simp [h]
  · rw [if_neg h, if_neg (by omega)]

/-- A field at bit 0 whose highest bit is `n`, with every bit above it reserved. -/
theorem getLsbD_low {n : Nat} (x : BitVec (n + 1)) {i : Nat} (hi : i < 32) :
    (x.setWidth 32).getLsbD i = if i ≤ n then x.getLsbD i else false := by
  simpa [Nat.lt_succ_iff] using getLsbD_placed x 0 hi

theorem toWord_status_getLsbD (st : Status) {i : Nat} (hi : i < 32) : st.toWord.getLsbD i =
    (if i = 0 then st.busy else if i = 1 then st.done else if i = 2 then st.err else if i = 3 then st.ovr
     else if 8 ≤ i ∧ i ≤ 11 then st.errCode.getLsbD (i - 8)
     else if 16 ≤ i ∧ i ≤ 23 then st.lastOp.getLsbD (i - 16) else false) := by
  simp only [Status.toWord, BitVec.getLsbD_or, getLsbD_bitAt _ _ hi, getLsbD_placed _ _ hi]
  interval_cases i <;> simp

theorem toWord_valid_getLsbD (v : Valid) {i : Nat} (hi : i < 32) : v.toWord.getLsbD i =
    (if i = 0 then v.key else if i = 1 then v.ctrLo else if i = 2 then v.ctrHi else if i = 3 then v.timeLo
     else if i = 4 then v.timeHi else if i = 5 then v.cbuf else if i = 6 then v.hs else if i = 7 then v.otp
     else if i = 8 then v.code else false) := by
  simp only [Valid.toWord, BitVec.getLsbD_or, getLsbD_bitAt _ _ hi]
  interval_cases i <;> simp

/-- Settles O44: a word reads as its fields, each placed at its own bit. -/
theorem statusAndValidWords : Obligations.StatusAndValidWords :=
  fun s _ hi => ⟨toWord_status_getLsbD s.status hi, toWord_valid_getLsbD s.valid hi⟩

/-! ### The other words -/

theorem readReg_config_getLsbD (s : State) {i : Nat} (hi : i < 32) : (readReg s .config).getLsbD i =
    (if i ≤ 7 then s.alg.getLsbD i else if i ≤ 15 then s.digits.getLsbD (i - 8) else false) := by
  rw [readReg, BitVec.getLsbD_or, getLsbD_placed _ _ hi, getLsbD_low s.alg hi]
  interval_cases i <;> simp

/-- A value below 2^31 has bit 31 clear. -/
theorem getLsbD_31_of_lt {x : Word} (h : x.toNat < 2 ^ 31) : x.getLsbD 31 = false :=
  Nat.testBit_eq_false_of_lt h

/-- A byte-wide length reads as the number it holds. -/
theorem setWidth_word_eq_ofNat {b : BitVec 8} {n : Nat} (h : b.toNat = n) : b.setWidth 32 = BitVec.ofNat 32 n := by
  apply BitVec.eq_of_toNat_eq
  have hb := b.isLt
  rw [BitVec.toNat_setWidth, BitVec.toNat_ofNat]
  omega

/-- Settles O56: the words are placed fields in every state, and the invariant bounds what a sound one holds. -/
theorem registerWords : Obligations.RegisterWords := by
  refine ⟨fun _ => rfl, fun s i hi => ?_, fun _ => ⟨rfl, rfl, rfl, rfl⟩, fun s h => ?_⟩
  · exact ⟨getLsbD_bitAt 0 s.ctrlIe hi, readReg_config_getLsbD s hi, getLsbD_low s.keyLen hi,
      getLsbD_low s.offset hi, rfl, rfl, getLsbD_low s.hsLen hi, getLsbD_low s.codeLen hi⟩
  · obtain ⟨hlen, hlen0, -⟩ := h.hash
    obtain ⟨hcode31, hcode, hcode0⟩ := h.code
    refine ⟨getLsbD_31_of_lt h.otp.1, getLsbD_31_of_lt hcode31, fun hv => ?_, fun hv => ?_, fun hv => ?_, fun hv => ?_⟩
    · exact (hlen hv).imp setWidth_word_eq_ofNat (Or.imp setWidth_word_eq_ofNat setWidth_word_eq_ofNat)
    · exact setWidth_word_eq_ofNat (hlen0 hv)
    · obtain ⟨hlo, hhi, -⟩ := hcode hv
      rw [readReg, BitVec.toNat_setWidth]
      omega
    · obtain ⟨-, hz, -⟩ := hcode0 hv
      simp [readReg, hz]

/-! ### The values after reset -/

/-- Settles O50: the registers evaluate, and each buffer is all zeros. -/
theorem resetValues : Obligations.ResetValues := by
  refine ⟨rfl, rfl, rfl, rfl, rfl, rfl, rfl, by decide, ?_, ?_, ?_, ?_, rfl⟩
  · exact fun i => zeroBuffer_getElem 8 i i.isLt
  · exact fun i => zeroBuffer_getElem 12 i i.isLt
  · exact fun i => zeroBuffer_getElem 64 i i.isLt
  · exact fun i => zeroBuffer_getElem 128 i i.isLt

/-! ### What a write reads back -/

theorem writeReg_status (s : State) (v : Word) : writeReg s .status v = s.setStatus (s.status.written v) := rfl

/-- While idle a write of an input register or of CMD takes effect (20_memory.md R78). -/
theorem writeReg_of_idle {s : State} {r : Reg} (hidle : s.status.busy = false) (hro : r.accessType ≠ .ro)
    (hctrl : r ≠ .ctrl) (hst : r ≠ .status) (v : Word) : writeReg s r v = writeInput s r v := by
  simp [writeReg, hidle, hro, hctrl, hst]

theorem bitAt_getLsbD_zero (v : Word) : bitAt 0 (v.getLsbD 0) = v &&& 0x00000001 := by
  apply BitVec.eq_of_getLsbD_eq
  intro i hi
  rw [getLsbD_bitAt _ _ hi]
  interval_cases i <;> simp

/-- The low two bytes of a word, put back in their places (10_state.md R26). -/
theorem low_bytes_eq_mask (v : Word) :
    (v.extractLsb' 0 8).setWidth 32 ||| (v.extractLsb' 8 8).setWidth 32 <<< 8 = v &&& 0x0000FFFF := by
  apply BitVec.eq_of_getLsbD_eq
  intro i hi
  rw [BitVec.getLsbD_or, getLsbD_placed _ _ hi, getLsbD_low (v.extractLsb' 0 8) hi]
  interval_cases i <;> simp

theorem low_half_eq_mask (v : Word) : (v.extractLsb' 0 16).setWidth 32 = v &&& 0x0000FFFF := by
  apply BitVec.eq_of_getLsbD_eq
  intro i hi
  rw [getLsbD_low (v.extractLsb' 0 16) hi]
  interval_cases i <;> simp

/-- A write that takes effect changes no word but its own and VALID. -/
theorem readReg_writeInput (s : State) (v : Word) {r r' : Reg} (hcmd : r ≠ .cmd) (hne : r' ≠ r)
    (hvalid : r' ≠ .valid) : readReg (writeInput s r v) r' = readReg s r' := by
  cases r with
  | cmd => contradiction
  | config | keyLen | period | t0Lo | t0Hi | timeLo | timeHi | ctrLo | ctrHi | key k =>
    cases r' <;> simp [writeInput, readReg] at hne hvalid ⊢
  | _ => rfl

theorem readReg_writeReg {s : State} (hidle : s.status.busy = false) (v : Word) {r r' : Reg} (hcmd : r ≠ .cmd)
    (hst : r ≠ .status) (hne : r' ≠ r) (hvalid : r' ≠ .valid) :
    readReg (writeReg s r v) r' = readReg s r' := by
  obtain ⟨-, he⟩ | ⟨rfl, he⟩ | ⟨h, -⟩ | ⟨-, -, -, hbusy, -⟩ | ⟨-, -, -, -, he⟩ := writeReg_cases s r v
  · rw [he]
  · rw [he]
    cases r' with
    | ctrl => contradiction
    | _ => rfl
  · contradiction
  · exact absurd hbusy (by simp [hidle])
  · rw [he]
    exact readReg_writeInput s v hcmd hne hvalid

/-- Settles O42: the written field is put back at the bits it was taken from, and no other word holds it. -/
theorem writesReadBack : Obligations.WritesReadBack := by
  intro s v hidle
  refine ⟨bitAt_getLsbD_zero v, ?_, ?_, ?_, fun r r' => readReg_writeReg hidle v⟩
  · rw [writeReg_of_idle hidle (by decide) (by decide) (by decide)]
    exact low_bytes_eq_mask v
  · rw [writeReg_of_idle hidle (by decide) (by decide) (by decide)]
    exact low_half_eq_mask v
  · intro r hr
    have hidle' := writeReg_of_idle (r := r) hidle
    fin_cases hr <;> exact congrArg (readReg · _) (hidle' (by decide) (by decide) (by decide) v)

end Sys2Proof.Proofs
end

section
/-! SUPPORT. The frame of each command (10_state.md R41, 30_encoding.md R102), the interrupt line (R44), and what can
clear a valid bit (R25). -/

open Sys2Proof Sys2Proof.Machine Sys2Proof.Claims

namespace Sys2Proof.Proofs

/-! ### What a commit leaves unchanged -/

/-- A word that HOTP does not write is written by none of the four stages it is made of. -/
theorem writes_hotp_stages {r : Reg} (h : writes .hotp r = false) :
    writes .ser r = false ∧ writes .hmac r = false ∧ writes .trunc r = false ∧ writes .reduce r = false := by
  cases r <;> simp [writes] at h ⊢

/-- A word that TOTP does not write is written by neither TSTEP nor HOTP. -/
theorem writes_totp_stages {r : Reg} (h : writes .totp r = false) :
    writes .tstep r = false ∧ writes .hotp r = false := by
  cases r <;> simp [writes] at h ⊢

section Frame

variable (s : State) {r : Reg} (hvalid : r ≠ .valid)
include hvalid

theorem readReg_commitCbuf_frame (b : List Byte) (h : writes .ser r = false) :
    readReg (s.commitCbuf b) r = readReg s r := by
  cases r <;> simp [writes, readReg] at h hvalid ⊢

theorem readReg_commitCounter_frame (c : Nat) (h : writes .tstep r = false) :
    readReg (s.commitCounter c) r = readReg s r := by
  cases r <;> simp [writes, readReg] at h hvalid ⊢

theorem readReg_commitHs_frame (hs : List Byte) (h : writes .hmac r = false) :
    readReg (s.commitHs hs) r = readReg s r := by
  cases r <;> simp [writes, readReg] at h hvalid ⊢

theorem readReg_commitOtp_frame (o : BitVec 4) (x : Word) (h : writes .trunc r = false) :
    readReg (s.commitOtp o x) r = readReg s r := by
  cases r <;> simp [writes, readReg] at h hvalid ⊢

theorem readReg_commitReduced_frame (otp d : Nat) (h : writes .reduce r = false) :
    readReg (s.commitReduced otp d) r = readReg s r := by
  cases r <;> simp [writes, readReg] at h hvalid ⊢

theorem readReg_zeroize_frame (h : writes .clear r = false) : readReg s.zeroize r = readReg s r := by
  cases r <;> simp [writes, readReg] at h hvalid ⊢

theorem readReg_commitAll_frame (b hs : List Byte) (o : BitVec 4) (x : Word) (otp d : Nat)
    (h : writes .hotp r = false) :
    readReg ((((s.commitCbuf b).commitHs hs).commitOtp o x).commitReduced otp d) r = readReg s r := by
  obtain ⟨hser, hhmac, htrunc, hreduce⟩ := writes_hotp_stages h
  rw [readReg_commitReduced_frame _ hvalid _ _ hreduce, readReg_commitOtp_frame _ hvalid _ _ htrunc,
    readReg_commitHs_frame _ hvalid _ hhmac, readReg_commitCbuf_frame _ hvalid _ hser]

end Frame

namespace Commits

variable {i : Instr} {s u : State}

/-- R41, R102: a commit changes the words of the command's row and VALID only. -/
theorem readReg_frame (hc : Commits s i u) {r : Reg} (hvalid : r ≠ .valid) (h : writes i r = false) :
    readReg u r = readReg s r := by
  cases hc with
  | nop => rfl
  | ser b => exact readReg_commitCbuf_frame s hvalid b h
  | tstep c => exact readReg_commitCounter_frame s hvalid c h
  | hmac a k m => exact readReg_commitHs_frame s hvalid _ h
  | trunc ht => exact readReg_commitOtp_frame s hvalid _ _ h
  | reduce hd => exact readReg_commitReduced_frame s hvalid _ _ h
  | hotp b a k m hctr ht hd => exact readReg_commitAll_frame s hvalid _ _ _ _ _ _ h
  | totp c b a k m ht hd =>
    obtain ⟨htstep, hhotp⟩ := writes_totp_stages h
    rw [readReg_commitCounter_frame _ hvalid c htstep]
    exact readReg_commitAll_frame s hvalid _ _ _ _ _ _ hhotp
  | clear => exact readReg_zeroize_frame s hvalid h

theorem key (hc : Commits s i u) (hi : i ≠ .clear) : u.key = s.key := by
  cases hc with
  | clear => contradiction
  | _ => simp

theorem ctrlIe (hc : Commits s i u) : u.ctrlIe = s.ctrlIe := by cases hc <;> simp

theorem status (hc : Commits s i u) : u.status = s.status := by cases hc <;> simp

theorem pending (hc : Commits s i u) : u.pending = s.pending := by cases hc <;> simp

theorem inputs (hc : Commits s i u) : u.inputs = s.inputs := by cases hc <;> simp

theorem reply (hc : Commits s i u) : u.reply = s.reply := by cases hc <;> simp

/-- HOTP leaves COUNTER as it was: its bits of VALID are set because the command needs them. -/
theorem valid (hc : Commits s i u) : u.valid = validAfter i s.valid := by
  cases hc with
  | hotp b a k m hctr ht hd =>
    obtain ⟨hlo, hhi⟩ := hctr
    simp [validAfter, hlo, hhi]
  | _ => rfl

end Commits

/-- Settles O28: an error changes STATUS alone, a success is a commit and then STATUS. -/
theorem commandFrame : Obligations.CommandFrame := by
  intro i s t ht
  obtain ⟨e, rfl⟩ | ⟨u, hc, rfl⟩ := exec_next ht
  · exact ⟨fun r hst _ _ => readReg_setStatus s _ hst, fun _ => rfl, rfl, rfl, rfl, rfl, rfl, rfl,
      fun h => absurd h e.code_ne_zero, fun _ => rfl⟩
  · refine ⟨fun r hst hvalid hw => ?_, hc.key, hc.pending, hc.rst, hc.inputs, hc.reply,
      by simp [hc.status], by simp [hc.status], fun _ => hc.valid, fun h => absurd rfl h⟩
    rw [State.succeed_eq, readReg_setStatus u _ hst]
    exact hc.readReg_frame hvalid hw

/-! ### The interrupt line -/

/-- Every completion sets DONE and leaves CTRL, so the line is IE from then on. -/
theorem irq_of_exec {i : Instr} {s t : State} (ht : exec i s = .next t) : t.irq = s.ctrlIe := by
  obtain ⟨e, rfl⟩ | ⟨u, hc, rfl⟩ := exec_next ht
  · simp [State.irq]
  · simp [State.irq, hc.ctrlIe]

theorem accessType_of_blockedWhenBusy {r : Reg} (h : blockedWhenBusy r = true) :
    r.accessType ≠ .ro ∧ r ≠ .ctrl ∧ r ≠ .status := by
  cases r <;> simp [blockedWhenBusy, Reg.accessType] at h ⊢

theorem writeReg_of_blocked {s : State} (hbusy : s.status.busy = true) {r : Reg} (h : blockedWhenBusy r = true)
    (v : Word) : writeReg s r v = s.overrun := by
  obtain ⟨hro, hctrl, hst⟩ := accessType_of_blockedWhenBusy h
  rw [writeReg, if_neg hro, if_neg hctrl, if_neg hst, if_pos hbusy]

/-- Settles O48: each step named leaves IE and DONE as its own lemma says. -/
theorem interruptLine : Obligations.InterruptLine := by
  refine ⟨fun _ => rfl, fun _ _ _ ht => irq_of_exec ht, ?_, ?_, fun s v => ⟨rfl, rfl⟩, ?_, rfl⟩
  · intro s w hidle
    rw [writeReg_of_idle hidle (by decide) (by decide) (by decide), writeInput]
    simp [State.irq]
  · intro s v hv
    rw [writeReg_status, Status.written_eq]
    simp [State.irq, hv]
  · intro s r v hbusy hblocked
    rw [writeReg_of_blocked hbusy hblocked]
    rfl

/-! ### Valid bits -/

/-- Every bit set in `v` is set in `w`. -/
def ValidLe (v w : Valid) : Prop :=
  (v.key = true → w.key = true) ∧ (v.ctrLo = true → w.ctrLo = true) ∧ (v.ctrHi = true → w.ctrHi = true) ∧
  (v.timeLo = true → w.timeLo = true) ∧ (v.timeHi = true → w.timeHi = true) ∧ (v.cbuf = true → w.cbuf = true) ∧
  (v.hs = true → w.hs = true) ∧ (v.otp = true → w.otp = true) ∧ (v.code = true → w.code = true)

theorem ValidLe.refl (v : Valid) : ValidLe v v := ⟨id, id, id, id, id, id, id, id, id⟩

/-- The order on the fields is the order on the bits of the word (10_state.md R25). -/
theorem ValidLe.toWord {v w : Valid} (h : ValidLe v w) {i : Nat} (hi : v.toWord.getLsbD i = true) :
    w.toWord.getLsbD i = true := by
  have h32 : i < 32 := BitVec.lt_of_getLsbD hi
  rw [toWord_valid_getLsbD _ h32] at hi ⊢
  unfold ValidLe at h
  grind

theorem validLe_validAfter {i : Instr} (hi : i ≠ .clear) (v : Valid) : ValidLe v (validAfter i v) := by
  cases i with
  | clear => contradiction
  | _ => simp [validAfter, ValidLe]

theorem validLe_writeInput (s : State) (r : Reg) (v : Word) : ValidLe s.valid (writeInput s r v).valid := by
  cases r <;> simp [writeInput, ValidLe]

theorem validLe_writeReg (s : State) (r : Reg) (v : Word) : ValidLe s.valid (writeReg s r v).valid := by
  obtain ⟨-, he⟩ | ⟨-, he⟩ | ⟨-, he⟩ | ⟨-, -, -, -, he⟩ | ⟨-, -, -, -, he⟩ := writeReg_cases s r v <;> rw [he]
  · exact .refl _
  · exact .refl _
  · exact .refl _
  · exact .refl _
  · exact validLe_writeInput s r v

theorem writeReg_valid_of_busy {s : State} (hbusy : s.status.busy = true) (r : Reg) (v : Word) :
    (writeReg s r v).valid = s.valid := by
  obtain ⟨-, he⟩ | ⟨-, he⟩ | ⟨-, he⟩ | ⟨-, -, -, -, he⟩ | ⟨-, -, -, hidle, -⟩ := writeReg_cases s r v
  · rw [he]
  · rw [he]
  · rw [he, State.setStatus_valid]
  · rw [he, State.overrun_eq, State.setStatus_valid]
  · exact absurd hbusy (by simp [hidle])

theorem validLe_hostStep {s t : State} {a : Access} (h : hostAccess s a = .next t ∨ hostProbe s a = .next t) :
    ValidLe s.valid t.valid := by
  obtain ⟨-, reply, u, rfl, rfl | ⟨r, v, rfl⟩⟩ := hostStep_next h
  · exact .refl _
  · exact validLe_writeReg s r v

/-- What an engine's turn does to VALID: a reset or a pending CLEAR can clear bits, every other turn keeps them. -/
theorem engineTurn_valid {s t : State} (h : engineTurn s = .next t) :
    ValidLe s.valid t.valid ∨ (s.rst = false ∧ s.status.busy = true ∧ decode s.pending = .ok .clear) ∨
      s.rst = true := by
  obtain ⟨hr, -⟩ | ⟨hr, hbusy, he⟩ | ⟨-, -, he⟩ := engineTurn_cases s
  · exact .inr (.inr hr)
  · obtain rfl | ⟨i, hdec, hx⟩ := completePending_next (he.symm.trans h)
    · exact .inl (.refl _)
    · by_cases hi : i = .clear
      · subst hi
        exact .inr (.inl ⟨hr, hbusy, hdec⟩)
      · obtain ⟨e, rfl⟩ | ⟨u, hc, rfl⟩ := exec_next hx
        · exact .inl (.refl _)
        · left
          rw [State.succeed_eq, State.setStatus_valid, hc.valid]
          exact validLe_validAfter hi _
  · cases he.symm.trans h
    exact .inl (.refl _)

theorem driveReset_valid (s : State) (level : Bool) :
    ValidLe s.valid (driveReset s level).valid ∨ s.rst = true ∨ (driveReset s level).rst = true := by
  cases level with
  | true => exact .inr (.inr rfl)
  | false =>
    cases hr : s.rst with
    | true => exact .inr (.inl rfl)
    | false => simp [driveReset, hr, ValidLe.refl]

/-- What a step does to VALID: an engine's turn that completes CLEAR and a reset can clear bits, nothing else can. -/
theorem step_valid {s t : State} (h : step s = .next t) :
    ValidLe s.valid t.valid ∨
    (s.rst = false ∧ (s.inputs = [] ∨ ∃ rest, s.inputs = .engine :: rest) ∧ s.status.busy = true ∧
      decode s.pending = .ok .clear) ∨ s.rst = true ∨ t.rst = true := by
  cases hin : s.inputs with
  | nil =>
    obtain hle | ⟨hr, hbusy, hdec⟩ | hr := engineTurn_valid ((step_nil hin).symm.trans h)
    · exact .inl hle
    · exact .inr (.inl ⟨hr, .inl rfl, hbusy, hdec⟩)
    · exact .inr (.inr (.inl hr))
  | cons e es =>
    have hd : deliver (s.setInputs es) e = .next t := (step_cons hin).symm.trans h
    cases e with
    | access a => exact .inl (validLe_hostStep (s := s.setInputs es) (.inl hd))
    | probe a => exact .inl (validLe_hostStep (s := s.setInputs es) (.inr hd))
    | engine =>
      obtain hle | ⟨hr, hbusy, hdec⟩ | hr := engineTurn_valid hd
      · exact .inl hle
      · exact .inr (.inl ⟨hr, .inr ⟨es, rfl⟩, hbusy, hdec⟩)
      · exact .inr (.inr (.inl hr))
    | rst level =>
      cases hd
      exact (driveReset_valid (s.setInputs es) level).imp_right .inr

/-- Settles O47: every other write and step leaves VALID at least what it was. -/
theorem validBitsAreOnlyClearedByClearOrReset : Obligations.ValidBitsAreOnlyClearedByClearOrReset := by
  refine ⟨fun s r v i => ⟨(validLe_writeReg s r v).toWord, fun hbusy => writeReg_valid_of_busy hbusy r v⟩, ?_⟩
  intro s t i ht hset hclear
  obtain hle | h := step_valid ht
  · exact absurd (hle.toWord hset) (by simp [hclear])
  · exact h

end Sys2Proof.Proofs
end

section
/-! SUPPORT. Who can see KEY (10_state.md R40): a command reads it through the secret only, and no host access and no
reset reads it at all. -/

open Sys2Proof Sys2Proof.Machine Sys2Proof.Claims

namespace Sys2Proof.Proofs

/-- `s` with KEY replaced. -/
def withKey (s : State) (k : Buffer 128) : State := { s with key := k }

/-! ### A command runs alike when the secret is the same -/

/-- The secret is the first KEYLEN bytes of KEY (10_state.md R27). -/
theorem withKey_secret {s : State} {k : Buffer 128} (h : ∀ j : Fin 128, j.val < s.keyLen.toNat → k[j] = s.key[j]) :
    (withKey s k).secret = s.secret := by
  apply List.ext_getElem
  · simp [State.secret, withKey]
  · intro j hj _
    obtain ⟨hlen, h128⟩ : j < s.keyLen.toNat ∧ j < 128 := by simpa [State.secret, withKey] using hj
    simpa [State.secret, withKey] using h ⟨j, h128⟩ hlen

section Operands

variable (s : State) (k : Buffer 128)

@[simp] theorem withKey_alg : (withKey s k).alg = s.alg := rfl
@[simp] theorem withKey_valid : (withKey s k).valid = s.valid := rfl
@[simp] theorem withKey_status : (withKey s k).status = s.status := rfl
@[simp] theorem withKey_rst : (withKey s k).rst = s.rst := rfl
@[simp] theorem withKey_cbuf : (withKey s k).cbuf = s.cbuf := rfl
@[simp] theorem withKey_otp31 : (withKey s k).otp31 = s.otp31 := rfl
@[simp] theorem withKey_counter : (withKey s k).counter = s.counter := rfl
@[simp] theorem withKey_time : (withKey s k).time = s.time := rfl
@[simp] theorem withKey_t0 : (withKey s k).t0 = s.t0 := rfl
@[simp] theorem withKey_periodSeconds : (withKey s k).periodSeconds = s.periodSeconds := rfl
@[simp] theorem withKey_hash : (withKey s k).hash = s.hash := rfl
@[simp] theorem withKey_keyTooLong : (withKey s k).keyTooLong = s.keyTooLong := rfl
@[simp] theorem withKey_digitCount : (withKey s k).digitCount? = s.digitCount? := rfl

end Operands

section Operations

variable {s : State} {k : Buffer 128}

theorem runSer_withKey : runSer (withKey s k) = (runSer s).map (withKey · k) := by
  rw [runSer, runSer, withKey_valid, withKey_counter]
  cases s.valid.counter <;> rfl

theorem runTstep_withKey : runTstep (withKey s k) = (runTstep s).map (withKey · k) := by
  rw [runTstep, runTstep, withKey_valid, withKey_time, withKey_t0, withKey_periodSeconds]
  cases s.valid.time with
  | false => rfl
  | true => cases timeStep s.time s.t0 s.periodSeconds <;> rfl

theorem runTrunc_withKey : runTrunc (withKey s k) = (runTrunc s).map (withKey · k) := by
  rw [runTrunc, runTrunc, withKey_valid, withKey_hash]
  cases s.valid.hs with
  | false => rfl
  | true => cases truncate s.hash <;> rfl

theorem runReduce_withKey : runReduce (withKey s k) = (runReduce s).map (withKey · k) := by
  rw [runReduce, runReduce, withKey_valid, withKey_digitCount, withKey_otp31]
  cases s.valid.otp with
  | false => rfl
  | true => cases s.digitCount? <;> rfl

variable (hsec : (withKey s k).secret = s.secret)
include hsec

theorem runHmac_withKey : runHmac (withKey s k) = (runHmac s).map (withKey · k) := by
  rw [runHmac, runHmac, withKey_valid, withKey_alg, withKey_keyTooLong, withKey_cbuf, hsec]
  cases (s.valid.cbuf && s.valid.key) with
  | false => rfl
  | true =>
    cases algOfCode s.alg with
    | none => rfl
    | some a => cases s.keyTooLong <;> rfl

/-- The part HOTP and TOTP share takes KEY through the secret and commits beside it. -/
theorem computeCode_withKey (c : Nat) : computeCode (withKey s k) c = (computeCode s c).map (withKey · k) := by
  rw [computeCode, computeCode, withKey_alg, withKey_digitCount, withKey_keyTooLong, hsec]
  cases algOfCode s.alg with
  | none => rfl
  | some a =>
    cases s.digitCount? with
    | none => rfl
    | some d =>
      cases s.keyTooLong with
      | true => rfl
      | false =>
        dsimp only
        cases truncate (hmac a s.secret (serializeCounter c)) <;> rfl

theorem runHotp_withKey : runHotp (withKey s k) = (runHotp s).map (withKey · k) := by
  rw [runHotp, runHotp, withKey_valid, withKey_counter, computeCode_withKey hsec]
  cases (s.valid.counter && s.valid.key) <;> rfl

theorem runTotp_withKey : runTotp (withKey s k) = (runTotp s).map (withKey · k) := by
  rw [runTotp, runTotp, withKey_valid, withKey_time, withKey_t0, withKey_periodSeconds]
  cases (s.valid.time && s.valid.key) with
  | false => rfl
  | true =>
    cases timeStep s.time s.t0 s.periodSeconds with
    | error e => rfl
    | ok c =>
      dsimp only
      rw [computeCode_withKey hsec]
      cases computeCode s c <;> rfl

theorem runOf_withKey {i : Instr} (hi : i ≠ .clear) :
    runOf i (withKey s k) = (runOf i s).map (withKey · k) := by
  cases i with
  | nop => rfl
  | ser => exact runSer_withKey
  | tstep => exact runTstep_withKey
  | hmac => exact runHmac_withKey hsec
  | trunc => exact runTrunc_withKey
  | reduce => exact runReduce_withKey
  | hotp => exact runHotp_withKey hsec
  | totp => exact runTotp_withKey hsec
  | clear => contradiction

end Operations

/-- Settles O30: the two states hold the same secret, and the completion adds only STATUS. -/
theorem keyBytesBeyondKeylenAreUnread : Obligations.KeyBytesBeyondKeylenAreUnread := by
  intro i s k hk hi
  have hrun := runOf_withKey (withKey_secret hk) hi
  cases hs : runOf i s with
  | ok t =>
    rw [hs] at hrun
    exact ⟨t.succeed, exec_of_ok hs, exec_of_ok hrun⟩
  | error e =>
    rw [hs] at hrun
    exact ⟨s.fail e, exec_of_error hs, exec_of_error hrun⟩

/-! ### No host access and no reset reads KEY -/

theorem readReg_withKey (s : State) (k : Buffer 128) (r : Reg) : readReg (withKey s k) r = readReg s r := by
  cases r <;> rfl

theorem writeInput_withKey (s : State) (k : Buffer 128) (r : Reg) (v : Word) :
    ∃ k', writeInput (withKey s k) r v = withKey (writeInput s r v) k' := by
  cases r with
  | key j => exact ⟨bufferSetWord k j.val v, rfl⟩
  | _ => exact ⟨k, rfl⟩

theorem writeReg_withKey (s : State) (k : Buffer 128) (r : Reg) (v : Word) :
    ∃ k', writeReg (withKey s k) r v = withKey (writeReg s r v) k' := by
  rw [writeReg, writeReg, withKey_status]
  split_ifs
  · exact ⟨k, rfl⟩
  · exact ⟨k, rfl⟩
  · exact ⟨k, rfl⟩
  · exact ⟨k, rfl⟩
  · exact writeInput_withKey s k r v

theorem busRead_withKey (s : State) (k : Buffer 128) (w : AccessWidth) (off : Nat) :
    busRead (withKey s k) w off = busRead s w off := by
  simp only [busRead, readReg_withKey]

theorem busWrite_withKey (s : State) (k : Buffer 128) (w : AccessWidth) (off : Nat) (v : Word) :
    ∃ k', busWrite (withKey s k) w off v = ((busWrite s w off v).1, withKey (busWrite s w off v).2 k') := by
  simp only [busWrite]
  cases selectReg w off with
  | error why => exact ⟨k, rfl⟩
  | ok r =>
    obtain ⟨k', hk'⟩ := writeReg_withKey s k r v
    exact ⟨k', congrArg (Prod.mk BusReply.writeDone) hk'⟩

/-- An access is answered alike, and writes KEY at most beside what it writes anyway. -/
theorem busAccess_withKey (s : State) (k : Buffer 128) (a : Access) (off : Nat) :
    ∃ k', busAccess (withKey s k) a off = ((busAccess s a off).1, withKey (busAccess s a off).2 k') := by
  cases a with
  | read w addr => exact ⟨k, congrArg (·, withKey s k) (busRead_withKey s k w off)⟩
  | write w addr v => exact busWrite_withKey s k w off v

/-- Two outcomes that differ in KEY at most. -/
def SameButKey (x y : Host.Outcome State Fault Refusal) : Prop :=
  (∀ t, x = .next t → ∃ k, y = .next (withKey t k)) ∧ (∀ f, x = .fault f → y = .fault f)

theorem SameButKey.next (t : State) (k : Buffer 128) : SameButKey (.next t) (.next (withKey t k)) := by
  refine ⟨fun t h => ?_, fun _ h => nomatch h⟩
  cases h
  exact ⟨k, rfl⟩

theorem SameButKey.fault (f : Fault) : SameButKey (.fault f) (.fault f) :=
  ⟨fun _ h => (nomatch h), fun _ => id⟩

theorem reachWindow_withKey (s : State) (k : Buffer 128) (a : Access) :
    reachWindow (withKey s k) a = reachWindow s a := rfl

theorem hostAccess_withKey (s : State) (k : Buffer 128) (a : Access) :
    SameButKey (hostAccess s a) (hostAccess (withKey s k) a) := by
  simp only [hostAccess, reachWindow_withKey]
  cases reachWindow s a with
  | error f => exact .fault f
  | ok off =>
    obtain ⟨k', hk'⟩ := busAccess_withKey s k a off
    dsimp only
    rw [hk']
    obtain ⟨reply, u⟩ := busAccess s a off
    cases reply with
    | busError why => exact .fault _
    | data v | writeDone => exact .next _ k'

theorem hostProbe_withKey (s : State) (k : Buffer 128) (a : Access) :
    SameButKey (hostProbe s a) (hostProbe (withKey s k) a) := by
  simp only [hostProbe, reachWindow_withKey]
  cases reachWindow s a with
  | error f => exact .fault f
  | ok off =>
    obtain ⟨k', hk'⟩ := busAccess_withKey s k a off
    dsimp only
    rw [hk']
    exact .next _ k'

/-- A reset puts KEY at its reset value whatever it held; a line driven low again leaves KEY. -/
theorem driveReset_withKey (s : State) (k : Buffer 128) (level : Bool) :
    ∃ k', driveReset (withKey s k) level = withKey (driveReset s level) k' := by
  rw [driveReset, driveReset, withKey_rst]
  split_ifs
  · exact ⟨zeroBuffer 128, rfl⟩
  · exact ⟨k, rfl⟩

/-- Settles O46: each kind of host step and the reset input commute with a change of KEY. -/
theorem hostStepsNeverRevealTheKey : Obligations.HostStepsNeverRevealTheKey := by
  intro s k e he
  change SameButKey (deliver s e) (deliver (withKey s k) e)
  cases e with
  | access a => exact hostAccess_withKey s k a
  | probe a => exact hostProbe_withKey s k a
  | engine => contradiction
  | rst level =>
    obtain ⟨k', hk'⟩ := driveReset_withKey s k level
    simp only [deliver, hk']
    exact .next _ k'

end Sys2Proof.Proofs
end

section
/-! SUPPORT. The register window (20_memory.md R70 to R80): the map in both directions, the bytes of a buffer word, what
a legal access and an erroneous one are answered, and what a write does to each word, idle and busy. -/

open Sys2Proof Sys2Proof.Machine Sys2Proof.Claims

namespace Sys2Proof.Proofs

/-! ### Addresses -/

/-- Settles O34: an offset below 4096 is a distance from BASE, whichever way the address is spelled. -/
theorem windowAddresses : Obligations.WindowAddresses := by
  refine ⟨Nat.mul_mod_right _ _, fun a => ?_⟩
  have hwindow : Config.window = 4096 := rfl
  cases a with
  | window off =>
    have hin : Config.base ≤ Config.base + off ∧ Config.base + off ≤ Config.base + 0xFFF ↔ off < Config.window := by
      omega
    simp only [BusAddr.windowOffset, BusAddr.address, hin, Nat.add_sub_cancel_left]
  | absolute addr =>
    have hin : addr ≤ Config.base + 0xFFF ↔ addr < Config.base + Config.window := by omega
    simp only [BusAddr.windowOffset, BusAddr.address, hin]

/-! ### The map -/

theorem groupWord_eq_none {count : Nat} {mk : Fin count → Reg} {n : Nat} :
    groupWord count mk n = none ↔ count ≤ n := by
  unfold groupWord
  split <;> simp <;> omega

/-- The n-th word from the start of the window is at offset 4n. -/
theorem byteOffset_of_plainRegs {n : Nat} {r : Reg} (h : plainRegs[n]? = some r) : r.byteOffset = 4 * n := by
  have hall : ∀ p ∈ plainRegs.zipIdx, p.1.byteOffset = 4 * p.2 := by decide
  exact hall (r, n) (List.mk_mem_zipIdx_iff_getElem?.mpr h)

/-- The map puts no word at an aligned offset but the word's own (20_memory.md R74). -/
theorem byteOffset_of_regAt {off : Nat} {r : Reg} (haligned : off % 4 = 0) (h : regAt off = some r) :
    off = r.byteOffset := by
  unfold regAt at h
  split_ifs at h
  · have hr := byteOffset_of_plainRegs h
    omega
  all_goals
    obtain ⟨hn, rfl⟩ := groupWord_eq_some.mp h
    simp only [Reg.byteOffset]
    omega

/-- The gaps of the map are the ends of its five groups of words. -/
theorem regAt_eq_none_iff {off : Nat} (haligned : off % 4 = 0) : regAt off = none ↔
    off = 0x04C ∨ off = 0x058 ∨ off = 0x05C ∨ (0x06C ≤ off ∧ off ≤ 0x07C) ∨ (0x0C0 ≤ off ∧ off ≤ 0x0FC) ∨
    0x180 ≤ off := by
  have hlen : plainRegs.length = 19 := rfl
  unfold regAt
  split_ifs
  · rw [List.getElem?_eq_none_iff, hlen]
    omega
  all_goals
    rw [groupWord_eq_none]
    omega

theorem registerMap_byteOffset : ∀ p ∈ registerMap, p.1 = p.2.1.byteOffset ∧ p.2.1.accessType = p.2.2 := by decide

/-- Settles O35: the map finds each word at its offset, at no other aligned one, and nothing in the gaps. -/
theorem registerMap : Obligations.RegisterMap := by
  refine ⟨fun p hp => ?_, fun k => ⟨regAt_byteOffset (.cbuf k), rfl⟩, fun k => ⟨regAt_byteOffset (.digbuf k), rfl⟩,
    fun k => ⟨regAt_byteOffset (.hs k), rfl⟩, fun k => ⟨regAt_byteOffset (.key k), rfl⟩, fun off r haligned => ?_,
    fun off haligned _ => regAt_eq_none_iff haligned⟩
  · obtain ⟨hoff, htype⟩ := registerMap_byteOffset p hp
    exact ⟨hoff ▸ regAt_byteOffset p.2.1, htype⟩
  · exact ⟨byteOffset_of_regAt haligned, fun h => h ▸ regAt_byteOffset r⟩

/-! ### Writes -/

theorem accessType_of_readOnly {r : Reg} (h : readOnly r = true) : r.accessType = .ro := by
  cases r <;> simp [readOnly, Reg.accessType] at h ⊢

theorem writeReg_of_readOnly (s : State) {r : Reg} (h : readOnly r = true) (v : Word) : writeReg s r v = s :=
  if_pos (accessType_of_readOnly h)

/-- While idle a write takes effect on the same words that it is dropped at while BUSY = 1. -/
theorem writeReg_of_unblocked {s : State} (hidle : s.status.busy = false) {r : Reg} (h : blockedWhenBusy r = true)
    (v : Word) : writeReg s r v = writeInput s r v := by
  obtain ⟨hro, hctrl, hst⟩ := accessType_of_blockedWhenBusy h
  exact writeReg_of_idle hidle hro hctrl hst v

/-- Byte i of the big-endian encoding of a word is the word's bits from 24 - 8i on (00_scope.md R8). -/
theorem beBytes_word_getD (v : Word) {i : Nat} (hi : i < 4) (d : Byte) :
    (beBytes 4 v.toNat).getD i d = v.extractLsb' (24 - 8 * i) 8 := by
  have hplace : 24 - 8 * i = 8 * (4 - 1 - i) := by omega
  rw [beBytes_getD 4 v.toNat i hi, hplace]
  rfl

theorem bufferSetWord_eq_keyWithWord (key : Buffer 128) (k : Fin 32) (v : Word) :
    bufferSetWord key k.val v = keyWithWord key k v := by
  apply Vector.ext
  intro j hj
  have hlane : j % 4 < 4 := Nat.mod_lt j (by decide)
  simp only [bufferSetWord_getElem, beBytes_word_getD v hlane, keyWithWord, Vector.getElem_ofFn]
  rfl

theorem writeReg_key_of_idle {s : State} (hidle : s.status.busy = false) (k : Fin 32) (v : Word) :
    writeReg s (.key k) v = { s with key := keyWithWord s.key k v } := by
  rw [← bufferSetWord_eq_keyWithWord]
  exact writeReg_of_unblocked hidle rfl v

/-- Settles O38: the cases of the write rule, each by the lemma that says which branch it takes. -/
theorem writeEffects : Obligations.WriteEffects := by
  intro s v
  refine ⟨fun r hr => writeReg_of_readOnly s hr v, rfl, ?_, fun hbusy r hr => writeReg_of_blocked hbusy hr v,
    fun hidle => ?_⟩
  · rw [writeReg_status, Status.written_eq]
    rfl
  · have hw {r : Reg} (hr : blockedWhenBusy r = true) := writeReg_of_unblocked hidle hr v
    exact ⟨hw rfl, hw rfl, hw rfl, hw rfl, hw rfl, hw rfl, hw rfl, hw rfl, hw rfl, hw rfl,
      fun k => writeReg_key_of_idle hidle k v⟩

/-! ### Buffer words -/

/-- The eight bits at place `q` of a byte placed at `p`: the byte, or nothing of it where the two places are apart. -/
theorem extractLsb'_placed (x : Byte) {p q : Nat} (hq : q + 8 ≤ 32) (hpq : p = q ∨ p + 8 ≤ q ∨ q + 8 ≤ p) :
    (x.setWidth 32 <<< p).extractLsb' q 8 = if p = q then x else 0 := by
  apply BitVec.eq_of_getLsbD_eq
  intro i hi
  rw [BitVec.getLsbD_extractLsb', getLsbD_placed _ _ (by omega)]
  obtain rfl | hapart := hpq
  · simp [hi]
  · rw [if_neg (by omega), if_neg (by omega)]
    simp

/-- Byte j of a buffer word is byte 4k + j of the buffer, the first one on top (20_memory.md R75). -/
theorem bufferWord_extractLsb' {n : Nat} (b : Buffer n) (k : Nat) (j : Fin 4) :
    (bufferWord b k).extractLsb' (24 - 8 * j.val) 8 = bufferByte b (4 * k + j.val) := by
  have hlow {q : Nat} := extractLsb'_placed (bufferByte b (4 * k + 3)) (p := 0) (q := q)
  rw [BitVec.shiftLeft_zero] at hlow
  simp only [bufferWord, BitVec.extractLsb'_or]
  fin_cases j <;> simp [extractLsb'_placed, hlow]

/-- Settles O43: one lane lemma for the writes of KEY and one for the reads of the three buffers. -/
theorem bufferLaneOrder : Obligations.BufferLaneOrder := by
  refine ⟨fun s k v j hidle => ?_, fun s k j => bufferWord_extractLsb' s.hs k.val j,
    fun s k j => bufferWord_extractLsb' s.cbuf k.val j, fun s k j => bufferWord_extractLsb' s.digbuf k.val j⟩
  rw [writeReg_key_of_idle hidle]
  simp [keyWithWord]

/-! ### What an access is answered -/

theorem reachWindow_of_offset {s : State} {a : Access} {off : Nat} (hoff : a.busAddr.windowOffset = some off)
    (hr : s.rst = false) : reachWindow s a = .ok off := by
  simp [reachWindow, hoff, hr]

/-- A 32-bit access at a mapped word's own offset is no bus error (20_memory.md R71 to R74). -/
theorem selectReg_byteOffset (r : Reg) : selectReg .w32 r.byteOffset = .ok r :=
  (selectReg_ok_iff _ _ _).mpr ⟨rfl, byteOffset_aligned r, regAt_byteOffset r⟩

theorem busAccess_read (s : State) (r : Reg) (addr : BusAddr) :
    busAccess s (.read .w32 addr) r.byteOffset = (.data (readReg s r), s) := by
  simp only [busAccess, busRead, selectReg_byteOffset]

theorem busAccess_write (s : State) (r : Reg) (addr : BusAddr) (v : Word) :
    busAccess s (.write .w32 addr v) r.byteOffset = (.writeDone, writeReg s r v) := by
  simp only [busAccess, busWrite, selectReg_byteOffset]

theorem busAccess_error (s : State) {a : Access} {off : Nat} {why : BusErrorKind}
    (h : selectReg a.width off = .error why) : busAccess s a off = (.busError why, s) := by
  cases a with
  | read w addr => simp only [busAccess, busRead, show selectReg w off = .error why from h]
  | write w addr v => simp only [busAccess, busWrite, show selectReg w off = .error why from h]

section Reached

variable {s : State} {a : Access} {off : Nat} (hoff : a.busAddr.windowOffset = some off) (hr : s.rst = false)
include hoff hr

theorem hostProbe_reached {reply : BusReply} {t : State} (h : busAccess s a off = (reply, t)) :
    hostProbe s a = .next (t.setReply reply) := by
  simp only [hostProbe, reachWindow_of_offset hoff hr, h]

theorem hostAccess_error {why : BusErrorKind} {t : State} (h : busAccess s a off = (.busError why, t)) :
    hostAccess s a = .fault (.busError off why) := by
  simp only [hostAccess, reachWindow_of_offset hoff hr, h]

theorem hostAccess_answered {reply : BusReply} {t : State} (h : busAccess s a off = (reply, t))
    (hok : ∀ why, reply ≠ .busError why) : hostAccess s a = .next (t.setReply reply) := by
  cases reply with
  | busError why => exact absurd rfl (hok why)
  | data v | writeDone => simp only [hostAccess, reachWindow_of_offset hoff hr, h]

end Reached

/-- A step that delivers an access without a bus error answers alike in either kind of host step (20_memory.md R77, R78;
assumption log 6). -/
theorem step_answered {s t : State} {a : Access} {off : Nat} {rest : List Event} {reply : BusReply}
    (hoff : a.busAddr.windowOffset = some off) (hr : s.rst = false)
    (hin : s.inputs = .access a :: rest ∨ s.inputs = .probe a :: rest)
    (h : busAccess (s.setInputs rest) a off = (reply, t)) (hok : ∀ why, reply ≠ .busError why) :
    step s = .next (t.setReply reply) := by
  obtain hin | hin := hin <;> rw [step_cons hin]
  · exact hostAccess_answered (s := s.setInputs rest) hoff hr h hok
  · exact hostProbe_reached (s := s.setInputs rest) hoff hr h

/-- A write-only word reads 0 (20_memory.md R77). -/
theorem readReg_of_writeOnly (s : State) {r : Reg} (h : r.accessType = .wo) : readReg s r = 0 := by
  cases r <;> simp [Reg.accessType, readReg] at h ⊢

/-- Settles O36: the access is answered with the word and leaves the state it was delivered at. -/
theorem readsHaveNoSideEffect : Obligations.ReadsHaveNoSideEffect := by
  intro s r addr rest hr hoff hin
  exact ⟨step_answered (a := .read .w32 addr) hoff hr hin (busAccess_read _ r addr) nofun, readReg_of_writeOnly s⟩

/-- Settles O37: the access is answered and leaves what the word's write does. -/
theorem writesTakeEffect : Obligations.WritesTakeEffect := by
  intro s r addr v rest hr hoff hin
  exact step_answered (a := .write .w32 addr v) hoff hr hin (busAccess_write _ r addr v) nofun

/-- Settles O45: such an access selects no word, so the bus answers its error at the state as it was. -/
theorem busErrorChangesNoState : Obligations.BusErrorChangesNoState := by
  intro s a off hoff hr hbad
  obtain ⟨why, hwhy⟩ := (selectReg_error_iff a.width off).mpr hbad
  have hbus := busAccess_error s hwhy
  exact ⟨why, hostProbe_reached hoff hr hbus, hostAccess_error hoff hr hbus⟩

/-! ### Host steps while a command runs -/

/-- `t` is `s` but for CTRL.IE, the bits of STATUS a host can change, and the bus's latest answer. -/
def HostBitsOnly (s t : State) : Prop :=
  t = { s with ctrlIe := t.ctrlIe, reply := t.reply
               status := { t.status with busy := true, lastOp := s.status.lastOp } }

theorem HostBitsOnly.setReply {s t : State} (h : HostBitsOnly s t) (reply : BusReply) :
    HostBitsOnly s (t.setReply reply) :=
  congrArg (State.setReply · reply) h

/-- A change of STATUS that keeps BUSY set and LASTOP as it was touches the host's bits only. -/
theorem hostBitsOnly_of_status {s : State} {st : Status} (hbusy : st.busy = true)
    (hop : st.lastOp = s.status.lastOp) : HostBitsOnly s (s.setStatus st) := by
  unfold HostBitsOnly
  rw [← hop, ← hbusy]
  rfl

/-- While BUSY = 1 a write reaches CTRL.IE and STATUS only (70_reset_and_hazards.md R310, R311). -/
theorem writeReg_hostBitsOnly {s : State} (hbusy : s.status.busy = true) (r : Reg) (v : Word) :
    HostBitsOnly s (writeReg s r v) := by
  have hself : HostBitsOnly s s := hostBitsOnly_of_status hbusy rfl
  obtain ⟨-, he⟩ | ⟨-, he⟩ | ⟨-, he⟩ | ⟨-, -, -, -, he⟩ | ⟨-, -, -, hidle, -⟩ := writeReg_cases s r v
  · rwa [he]
  · rw [he]
    exact congrArg (fun u : State => { u with ctrlIe := v.getLsbD 0 }) hself
  · rw [he, Status.written_eq]
    exact hostBitsOnly_of_status hbusy rfl
  · rw [he]
    exact hostBitsOnly_of_status hbusy rfl
  · exact absurd hbusy (by simp [hidle])

/-- Settles O40: a read or an error leaves the state, a write the host's bits of it. -/
theorem hostStepsWhileBusyChangeOnlyCtrlAndStatus : Obligations.HostStepsWhileBusyChangeOnlyCtrlAndStatus := by
  intro s t a hbusy h
  change HostBitsOnly s t
  obtain ⟨-, reply, u, rfl, rfl | ⟨r, v, rfl⟩⟩ := hostStep_next h
  · exact (hostBitsOnly_of_status hbusy rfl).setReply reply
  · exact (writeReg_hostBitsOnly hbusy r v).setReply reply

end Sys2Proof.Proofs
end

section
/-! SUPPORT. The command encoding (30_encoding.md R100 to R104): a word is its two fields, the decoder inverts the
encoder on the words of the table and rejects the rest, and what becomes of a rejected word that is issued. -/

open Sys2Proof Sys2Proof.Machine Sys2Proof.Claims

namespace Sys2Proof.Proofs

/-! ### The fields of format C -/

/-- A command word is its RSVD above its OPCODE (30_encoding.md R101). -/
theorem rsvdField_append_opcodeField (w : Word) : rsvdField w ++ opcodeField w = w :=
  BitVec.extractLsb'_append_extractLsb'

@[simp] theorem rsvdField_append (r : BitVec 24) (o : BitVec 8) : rsvdField (r ++ o) = r :=
  (BitVec.extractLsb'_append_eq_of_le (Nat.le_refl 8)).trans BitVec.extractLsb'_eq_self

@[simp] theorem opcodeField_append (r : BitVec 24) (o : BitVec 8) : opcodeField (r ++ o) = o :=
  (BitVec.extractLsb'_append_eq_of_add_le (Nat.le_refl 8)).trans BitVec.extractLsb'_eq_self

@[simp] theorem rsvdField_encode (i : Instr) : rsvdField (encode i) = 0 := rsvdField_append _ _

@[simp] theorem opcodeField_encode (i : Instr) : opcodeField (encode i) = encodeOpcode i := opcodeField_append _ _

theorem eq_encode_iff {w : Word} {i : Instr} : w = encode i ↔ rsvdField w = 0 ∧ opcodeField w = encodeOpcode i := by
  constructor
  · rintro rfl
    exact ⟨rsvdField_encode i, opcodeField_encode i⟩
  · rintro ⟨hrsvd, hop⟩
    rw [← rsvdField_append_opcodeField w, hrsvd, hop]
    rfl

/-- The mask of R103 keeps RSVD in its place and drops OPCODE. -/
theorem and_rsvdMask (w : Word) : w &&& 0xFFFFFF00 = rsvdField w ++ 0#8 := by
  have hmask : (0xFFFFFF00 : Word) = BitVec.allOnes 24 ++ 0#8 := rfl
  calc w &&& 0xFFFFFF00
      = (rsvdField w ++ opcodeField w) &&& (BitVec.allOnes 24 ++ 0#8) := by rw [rsvdField_append_opcodeField, hmask]
    _ = (rsvdField w &&& BitVec.allOnes 24) ++ (opcodeField w &&& 0#8) := BitVec.and_append
    _ = rsvdField w ++ 0#8 := by rw [BitVec.and_allOnes, BitVec.and_zero]

theorem and_rsvdMask_eq_zero_iff {w : Word} : w &&& 0xFFFFFF00 = 0 ↔ rsvdField w = 0 := by
  rw [and_rsvdMask]
  constructor
  · intro h
    rw [← rsvdField_append (rsvdField w) 0#8, h]
    rfl
  · intro h
    rw [h]
    rfl

/-! ### The decoder -/

/-- The opcode table read in both directions: a byte selects the command whose OPCODE it is (30_encoding.md R103). -/
theorem decodeOpcode_eq_some_iff {o : BitVec 8} {i : Instr} : decodeOpcode o = some i ↔ o = encodeOpcode i := by
  revert o
  cases i <;> decide

/-- The bytes that select no command are the unassigned values of 30_encoding.md R104. -/
theorem decodeOpcode_eq_none_iff {o : BitVec 8} : decodeOpcode o = none ↔
    o.toNat ∈ [0x06, 0x07, 0x0A, 0x0B, 0x0C, 0x0D, 0x0E] ∨ 0x10 ≤ o.toNat := by
  revert o
  decide

theorem decode_of_rsvd_ne_zero {w : Word} (h : rsvdField w ≠ 0) : decode w = .error (.reservedBits (rsvdField w)) :=
  if_pos h

/-- With RSVD zero the OPCODE alone decides. -/
theorem decode_of_rsvd_eq_zero {w : Word} (h : rsvdField w = 0) : decode w =
    (decodeOpcode (opcodeField w)).elim (.error (.unassignedOpcode (opcodeField w))) .ok := by
  rw [decode, if_neg (not_not.mpr h)]
  cases decodeOpcode (opcodeField w) <;> rfl

theorem decode_eq_ok_iff_fields {w : Word} {i : Instr} :
    decode w = .ok i ↔ rsvdField w = 0 ∧ opcodeField w = encodeOpcode i := by
  rw [← decodeOpcode_eq_some_iff]
  by_cases hrsvd : rsvdField w = 0
  · rw [decode_of_rsvd_eq_zero hrsvd]
    cases decodeOpcode (opcodeField w) <;> simp [hrsvd]
  · rw [decode_of_rsvd_ne_zero hrsvd]
    exact iff_of_false nofun fun h => hrsvd h.1

/-- The decoder selects a row by its command word (30_encoding.md R103). -/
theorem decode_eq_ok_iff {w : Word} {i : Instr} : decode w = .ok i ↔ w = encode i :=
  decode_eq_ok_iff_fields.trans eq_encode_iff.symm

@[simp] theorem decode_encode (i : Instr) : decode (encode i) = .ok i := decode_eq_ok_iff.mpr rfl

theorem illegalWord_iff {w : Word} : IllegalWord w ↔ rsvdField w ≠ 0 ∨ decodeOpcode (opcodeField w) = none := by
  rw [decodeOpcode_eq_none_iff]
  rfl

theorem decode_eq_error_iff {w : Word} : (∃ e, decode w = .error e) ↔ IllegalWord w := by
  rw [illegalWord_iff]
  by_cases hrsvd : rsvdField w = 0
  · rw [decode_of_rsvd_eq_zero hrsvd]
    cases decodeOpcode (opcodeField w) <;> simp [hrsvd]
  · exact iff_of_true ⟨_, decode_of_rsvd_ne_zero hrsvd⟩ (.inl hrsvd)

/-- The check of WellFormed and the decoder leave the same bytes without a command (30_encoding.md R104). -/
theorem opcodeIsAssigned_eq_false_iff {w : Word} :
    CommandWord.opcodeIsAssigned w = false ↔ decodeOpcode (opcodeField w) = none := by
  rw [CommandWord.opcodeIsAssigned, ← opcodeField]
  generalize opcodeField w = o
  revert o
  decide

theorem wellFormed_eq_false_iff {w : Word} : CommandWord.wellFormed w = false ↔ IllegalWord w := by
  rw [illegalWord_iff, ← opcodeIsAssigned_eq_false_iff, CommandWord.wellFormed, Bool.and_eq_false_iff]
  exact or_congr_left beq_eq_false_iff_ne

/-- Settles O1: the words evaluate, and each decodes to its command. -/
theorem opcodeTableWords : Obligations.OpcodeTableWords := ⟨by decide, decode_encode⟩

/-- Settles O2: the decoder's answer is equality with the command word, which is equality of the two fields. -/
theorem decoderSelectsByCommandWord : Obligations.DecoderSelectsByCommandWord := by
  refine ⟨fun w => ?_, fun w i => ?_⟩
  · have hrow (i : Instr) : decode w = .ok i ↔ w = encode i := decode_eq_ok_iff
    exact ⟨hrow .nop, hrow .ser, hrow .tstep, hrow .hmac, hrow .trunc, hrow .reduce, hrow .hotp, hrow .totp,
      hrow .clear⟩
  · rw [decode_eq_ok_iff_fields, ← opcodeField_encode, ← and_rsvdMask_eq_zero_iff]
    rfl

/-- Settles O3: both checks fail on a RSVD that is not zero and on an OPCODE that selects no command. -/
theorem rejectedWordsAreTheIllegalOnes : Obligations.RejectedWordsAreTheIllegalOnes :=
  fun _ => ⟨decode_eq_error_iff, wellFormed_eq_false_iff⟩

/-! ### An illegal word that is issued -/

/-- A CMD write while idle is the acceptance of its word, legal or not (43_fused_control.md R231). -/
theorem writeReg_cmd_of_idle {s : State} (hidle : s.status.busy = false) (w : Word) :
    writeReg s .cmd w = accepted s w :=
  writeReg_of_idle hidle (by decide) (by decide) (by decide) w

/-- A pending illegal word fails with ILLEGAL_CMD and changes STATUS alone (30_encoding.md R104). -/
theorem completePending_of_illegalWord {s : State} (h : IllegalWord s.pending) :
    completePending s = .next (failed s 1) := by
  obtain ⟨e, he⟩ := decode_eq_error_iff.mpr h
  rw [completePending, he]
  rfl

/-- The engine's turn with BUSY = 1 completes the pending word (43_fused_control.md R230). -/
theorem engineTurn_of_busy {s : State} (hr : s.rst = false) (hbusy : s.status.busy = true) :
    engineTurn s = completePending s := by
  simp [engineTurn, hr, hbusy]

theorem step_engine_of_busy {s : State} {rest : List Event} (hin : s.inputs = .engine :: rest)
    (hr : s.rst = false) (hbusy : s.status.busy = true) : step s = completePending (s.setInputs rest) := by
  rw [step_cons hin]
  exact engineTurn_of_busy (s := s.setInputs rest) hr hbusy

/-- Settles O4: the write is an acceptance, and the engine's turn completes the pending illegal word. -/
theorem illegalWordIsAcceptedThenFails : Obligations.IllegalWordIsAcceptedThenFails := by
  intro s w rest hw hr hidle
  exact ⟨writeReg_cmd_of_idle hidle w,
    Eq.trans (step_engine_of_busy rfl hr rfl) (completePending_of_illegalWord hw)⟩

end Sys2Proof.Proofs
end

section
/-! SUPPORT. The serializer and the time-step unit (40_counter.md R120 to R130): the counter's bytes are the bits of
CTR_HI:CTR_LO, the time step is a floor that fits COUNTER, and the two fused commands share everything behind it. -/

open Sys2Proof Sys2Proof.Machine Sys2Proof.Claims

namespace Sys2Proof.Proofs

/-! ### A word is its four bytes, a buffer is its words -/

theorem word_eq_of_bytes {v w : Word}
    (h : ∀ j : Fin 4, v.extractLsb' (24 - 8 * j.val) 8 = w.extractLsb' (24 - 8 * j.val) 8) : v = w := by
  apply BitVec.eq_of_getLsbD_eq
  intro i hi
  have hplace : 24 - 8 * (3 - i / 8) + i % 8 = i := by omega
  have hbit := congrArg (·.getLsbD (i % 8)) (h ⟨3 - i / 8, by omega⟩)
  simpa [Nat.mod_lt, hplace] using hbit

/-- A buffer word is any word with the buffer's four bytes, the first one on top (20_memory.md R75). -/
theorem bufferWord_eq_of_bytes {n : Nat} {b : Buffer n} {k : Nat} {w : Word}
    (h : ∀ j : Fin 4, bufferByte b (4 * k + j.val) = w.extractLsb' (24 - 8 * j.val) 8) : bufferWord b k = w :=
  word_eq_of_bytes fun j => (bufferWord_extractLsb' b k j).trans (h j)

theorem buffer_eq_of_words {n : Nat} {b b' : Buffer (4 * n)}
    (h : ∀ k : Fin n, bufferWord b k.val = bufferWord b' k.val) : b = b' := by
  apply Vector.ext
  intro i hi
  have hbyte := congrArg (·.extractLsb' (24 - 8 * (i % 4)) 8) (h ⟨i / 4, by omega⟩)
  have hlane (a : Buffer (4 * n)) : bufferByte a (4 * (i / 4) + i % 4) = a[i] := by
    rw [Nat.div_add_mod, bufferByte_eq a i hi]
  rwa [bufferWord_extractLsb' b _ ⟨i % 4, by omega⟩, bufferWord_extractLsb' b' _ ⟨i % 4, by omega⟩,
    hlane b, hlane b'] at hbyte

/-! ### The serialized counter -/

theorem counter_lt (s : State) : s.counter < 2 ^ 64 := (s.ctrHi ++ s.ctrLo).isLt

/-- Byte i of the serialized counter is the bits of CTR_HI:CTR_LO from 56 - 8i on (40_counter.md R120). -/
theorem serializeCounter_getD (s : State) {i : Nat} (hi : i < 8) (d : Byte) :
    (serializeCounter s.counter).getD i d = (s.ctrHi ++ s.ctrLo).extractLsb' (56 - 8 * i) 8 := by
  have hplace : 56 - 8 * i = 8 * (8 - 1 - i) := by omega
  rw [serializeCounter, beBytes_getD 8 s.counter i hi, hplace]
  rfl

theorem bufferOf_serializeCounter (s : State) : bufferOf 8 (serializeCounter s.counter) =
    Vector.ofFn fun i => (s.ctrHi ++ s.ctrLo).extractLsb' (56 - 8 * i.val) 8 := by
  apply Vector.ext
  intro i hi
  rw [bufferOf_getElem, serializeCounter_getD s hi, Vector.getElem_ofFn]

theorem beInt_bufferOf_serializeCounter (s : State) :
    beInt (bufferOf 8 (serializeCounter s.counter)).toList = s.counter := by
  rw [serializeCounter, bufferOf_toList 8 _ (beBytes_length 8 s.counter)]
  exact beInt_beBytes 8 s.counter (counter_lt s)

theorem bufferByte_serializeCounter (s : State) {i : Nat} (hi : i < 8) :
    bufferByte (bufferOf 8 (serializeCounter s.counter)) i = (s.ctrHi ++ s.ctrLo).extractLsb' (56 - 8 * i) 8 := by
  rw [bufferByte_eq _ i hi, bufferOf_getElem, serializeCounter_getD s hi]

/-- The first word of the serialized counter is CTR_HI (40_counter.md R122). -/
theorem bufferWord_serializeCounter_zero (s : State) :
    bufferWord (bufferOf 8 (serializeCounter s.counter)) 0 = s.ctrHi := by
  apply bufferWord_eq_of_bytes
  intro j
  have hplace : 56 - 8 * (4 * 0 + j.val) - 32 = 24 - 8 * j.val := by omega
  rw [bufferByte_serializeCounter s (by omega), BitVec.extractLsb'_append_eq_of_le (by omega), hplace]

/-- The second word of the serialized counter is CTR_LO (40_counter.md R122). -/
theorem bufferWord_serializeCounter_one (s : State) :
    bufferWord (bufferOf 8 (serializeCounter s.counter)) 1 = s.ctrLo := by
  apply bufferWord_eq_of_bytes
  intro j
  have hplace : 56 - 8 * (4 * 1 + j.val) = 24 - 8 * j.val := by omega
  rw [bufferByte_serializeCounter s (by omega), hplace, BitVec.extractLsb'_append_eq_of_add_le (by omega)]

/-! ### SER -/

theorem exec_ser_of_invalid {s : State} (h : s.valid.ctrLo = false ∨ s.valid.ctrHi = false) :
    exec .ser s = .next (s.fail .missingInput) := by
  have hv : s.valid.counter = false := Bool.and_eq_false_iff.mpr h
  exact exec_of_error (by simp [runOf, runSer, hv])

theorem exec_ser_of_valid {s : State} (hlo : s.valid.ctrLo = true) (hhi : s.valid.ctrHi = true) :
    exec .ser s = .next (s.commitCbuf (serializeCounter s.counter)).succeed := by
  have hv : s.valid.counter = true := Bool.and_eq_true_iff.mpr ⟨hlo, hhi⟩
  exact exec_of_ok (by simp [runOf, runSer, hv])

/-- Settles O13: the valid bits decide the branch, and the bytes committed are the bits of CTR_HI:CTR_LO. -/
theorem serResult : Obligations.SerResult := by
  intro s
  refine ⟨exec_ser_of_invalid, fun hlo hhi => ?_⟩
  rw [exec_ser_of_valid hlo hhi, ← bufferOf_serializeCounter]
  rfl

/-- Settles O14: CBUF holds the serialized counter, whose words and integer are known, and COUNTER is not written. -/
theorem serPreservesCounter : Obligations.SerPreservesCounter := by
  intro s hlo hhi
  exact ⟨_, exec_ser_of_valid hlo hhi, bufferWord_serializeCounter_zero s, bufferWord_serializeCounter_one s,
    beInt_bufferOf_serializeCounter s, rfl⟩

/-! ### The time step -/

theorem timeStep_of_nonpos_period {time t0 x : Int} (hx : x ≤ 0) : timeStep time t0 x = .error .invalidPeriod :=
  (timeStep_error_iff time t0 x _).mpr (.inl ⟨hx, rfl⟩)

theorem timeStep_of_time_lt {time t0 x : Int} (hx : 0 < x) (h : time < t0) :
    timeStep time t0 x = .error .counterRange :=
  (timeStep_error_iff time t0 x _).mpr (.inr ⟨hx, Int.fdiv_neg_of_neg_of_pos (by omega) hx, rfl⟩)

theorem timeStep_of_le_time {time t0 x : Int} (hx : 0 < x) (h : t0 ≤ time) :
    timeStep time t0 x = .ok ((time - t0) / x).toNat := by
  refine (timeStep_ok_iff time t0 x _).mpr ⟨hx, ?_⟩
  rw [Int.fdiv_eq_ediv_of_nonneg _ hx.le, Int.toNat_of_nonneg (Int.ediv_nonneg (by omega) hx.le)]

theorem isFloor_toNat_ediv {n x : Int} (hn : 0 ≤ n) (hx : 0 < x) : IsFloor (n / x).toNat n x := by
  rw [IsFloor, Int.toNat_of_nonneg (Int.ediv_nonneg hn hx.le)]
  exact ⟨Int.ediv_mul_le n hx.ne', Int.lt_ediv_add_one_mul_self n hx⟩

/-- The distance of two 64-bit times is below 2^64, and the time step with it (40_counter.md R129). -/
theorem toNat_timeStep_lt (s : State) {x : Int} (h : s.t0 ≤ s.time) : ((s.time - s.t0) / x).toNat < 2 ^ 64 := by
  have htime : s.time < 2 ^ 63 := BitVec.toInt_lt (x := s.timeHi ++ s.timeLo)
  have ht0 : -2 ^ 63 ≤ s.t0 := BitVec.le_toInt (s.t0Hi ++ s.t0Lo)
  have hle := Int.ediv_le_self x (show 0 ≤ s.time - s.t0 by omega)
  omega

/-! ### TSTEP -/

/-- The commit of a counter splits it into its two words (40_counter.md R126). -/
theorem commitCounter_eq_withCounter (s : State) (c : Nat) : s.commitCounter c = withCounter s c := by
  have hhi : BitVec.ofNat 32 (c >>> 32) = BitVec.ofNat 32 (c / 2 ^ 32) := by rw [Nat.shiftRight_eq_div_pow]
  have hlo : BitVec.ofNat 32 c = BitVec.ofNat 32 (c % 2 ^ 32) := by simp [← BitVec.toNat_inj]
  rw [State.commitCounter, withCounter, hhi, hlo]

theorem exec_tstep_of_invalid {s : State} (h : s.valid.timeLo = false ∨ s.valid.timeHi = false) :
    exec .tstep s = .next (s.fail .missingInput) := by
  have hv : s.valid.time = false := Bool.and_eq_false_iff.mpr h
  exact exec_of_error (by simp [runOf, runTstep, hv])

section ValidTime

variable {s : State} (hlo : s.valid.timeLo = true) (hhi : s.valid.timeHi = true)
include hlo hhi

theorem valid_time : s.valid.time = true := Bool.and_eq_true_iff.mpr ⟨hlo, hhi⟩

theorem exec_tstep_of_error {e : ErrCode} (h : timeStep s.time s.t0 s.periodSeconds = .error e) :
    exec .tstep s = .next (s.fail e) :=
  exec_of_error (by simp [runOf, runTstep, valid_time hlo hhi, h])

theorem exec_tstep_of_ok {c : Nat} (h : timeStep s.time s.t0 s.periodSeconds = .ok c) :
    exec .tstep s = .next (s.commitCounter c).succeed :=
  exec_of_ok (by simp [runOf, runTstep, valid_time hlo hhi, h])

end ValidTime

/-- Settles O15: the valid bits come first, then the outcome of the time step decides, in its own order. -/
theorem tstepResult : Obligations.TstepResult := by
  intro s
  refine ⟨exec_tstep_of_invalid, fun hlo hhi => ⟨fun hx => ?_, fun hx hlt => ?_, fun hx hle => ?_⟩⟩
  · exact exec_tstep_of_error hlo hhi (timeStep_of_nonpos_period hx)
  · exact exec_tstep_of_error hlo hhi (timeStep_of_time_lt hx hlt)
  · refine ⟨_, toNat_timeStep_lt s hle, isFloor_toNat_ediv (by omega) hx, ?_⟩
    rw [exec_tstep_of_ok hlo hhi (timeStep_of_le_time hx hle), commitCounter_eq_withCounter]
    rfl

/-! ### TOTP as HOTP -/

/-- Commands whose operations have the same result complete with the same outcome, and on success with the same words
(43_fused_control.md R232). -/
theorem SameResult.completes_alike {i j : Instr} {s s' t : State} (h : SameResult i (runOf j s) (runOf i s'))
    (ht : exec j s = .next t) :
    ∃ t', exec i s' = .next t' ∧ t'.status.errCode = t.status.errCode ∧
      (t.status.errCode = 0 → SameWrites i t t') := by
  rw [exec_eq_finish] at ht ⊢
  generalize runOf j s = x, runOf i s' = x' at h ht
  cases h with
  | error e =>
    cases ht
    exact ⟨_, finish_error s' e, rfl, fun h0 => absurd h0 e.code_ne_zero⟩
  | ok hw =>
    cases ht
    exact ⟨_, finish_ok s' _, rfl, fun _ => hw.succeed⟩

/-- Past its time step TOTP computes what HOTP does for that counter, and writes the same words of it (R234). -/
theorem runTotp_sameResult_runHotp {s s' : State} (htime : s.valid.time = true) (hctr : s'.valid.counter = true)
    (hstep : timeStep s.time s.t0 s.periodSeconds = .ok s'.counter) (hsec : s'.secret = s.secret)
    (hlen : s'.keyLen = s.keyLen) (hvk : s'.valid.key = s.valid.key) (halg : s'.alg = s.alg)
    (hdig : s'.digits = s.digits) : SameResult .hotp (runTotp s) (runHotp s') := by
  rw [runTotp, runHotp, htime, hctr, hvk, hstep]
  split
  · exact .error _
  · have hcode := computeCode_sameResult hsec.symm hlen.symm halg.symm hdig.symm s'.counter
    dsimp only
    generalize computeCode s s'.counter = x, computeCode s' s'.counter = x' at hcode ⊢
    cases hcode with
    | error e => exact .error e
    | ok hw => exact .ok fun r hr => (readReg_commitCounter _ _ hr).trans (hw r hr)

theorem setWidth_word_inj {w : Nat} (hw : w ≤ 32) {x y : BitVec w} (h : x.setWidth 32 = y.setWidth 32) : x = y := by
  simpa [hw] using congrArg (BitVec.setWidth w) h

/-- States in which the words HOTP writes read the same hold the same results (43_fused_control.md R233). -/
theorem SameWrites.hotp_results {t t' : State} (h : SameWrites .hotp t t') :
    t'.code = t.code ∧ t'.codeLen = t.codeLen ∧ t'.digbuf = t.digbuf ∧ t'.hs = t.hs ∧ t'.hsLen = t.hsLen ∧
      t'.offset = t.offset ∧ t'.otp31 = t.otp31 ∧ t'.cbuf = t.cbuf := by
  have hw (r : Reg) (hr : writes .hotp r = true) : readReg t' r = readReg t r := (h r hr).symm
  exact ⟨hw .code rfl, setWidth_word_inj (by decide) (hw .codeLen rfl),
    buffer_eq_of_words (n := 3) fun k => hw (.digbuf k) rfl, buffer_eq_of_words (n := 16) fun k => hw (.hs k) rfl,
    setWidth_word_inj (by decide) (hw .hsLen rfl), setWidth_word_inj (by decide) (hw .offset rfl), hw .otp31 rfl,
    buffer_eq_of_words (n := 2) fun k => hw (.cbuf k) rfl⟩

/-- With T0 = 0 and PERIOD = 30 the time step is floor(TIME / 30) (40_counter.md R130). -/
theorem timeStep_of_default_period {s : State} (ht0 : s.t0 = 0) (hper : s.period = 30) (htime : 0 ≤ s.time) :
    timeStep s.time s.t0 s.periodSeconds = .ok (s.time / 30).toNat := by
  have hx : s.periodSeconds = 30 := by rw [State.periodSeconds, hper]; rfl
  rw [hx, ht0, timeStep_of_le_time (by decide) htime, sub_zero]

/-- Settles O23: the time step gives the counter HOTP starts from, and the words HOTP writes fix its results. -/
theorem totpIsHotpAtTheTimeStep : Obligations.TotpIsHotpAtTheTimeStep := by
  intro s s' t ht0 hper htime hlo hhi hctr hclo hchi hsec hlen hvk halg hdig ht
  have hstep := timeStep_of_default_period ht0 hper htime
  rw [← hctr] at hstep
  have hrun : SameResult .hotp (runOf .totp s) (runOf .hotp s') :=
    runTotp_sameResult_runHotp (valid_time hlo hhi) (Bool.and_eq_true_iff.mpr ⟨hclo, hchi⟩) hstep hsec hlen hvk halg
      hdig
  obtain ⟨t', ht', herr, hw⟩ := hrun.completes_alike ht
  exact ⟨t', ht', herr, fun h0 => (hw h0).hotp_results⟩

end Sys2Proof.Proofs
end

section
/-! SUPPORT. The keyed hash (41_hmac.md): digest lengths, padding and the split of a message into blocks and words, the
handling of the key, and the command HMAC over them. -/

open Sys2Proof Sys2Proof.Machine Sys2Proof.Claims

namespace Sys2Proof.Proofs

/-! ### Digest lengths -/

/-- The model's output length is the one of the table (41_hmac.md R141). -/
theorem outputBytes_eq_digestBytes (a : Alg) : a.outputBytes = digestBytes a := by cases a <;> rfl

/-- Settles O31: every digest ends as the state words, each in a fixed number of bytes, and a keyed hash is a digest. -/
theorem digestLengths : Obligations.DigestLengths := by
  intro a key m
  rw [← outputBytes_eq_digestBytes]
  exact ⟨hashWith_length a m, hmac_length a key m⟩

/-! ### Padding and blocks -/

section Padding

variable {B : Nat} (hB : 0 < B) (F n : Nat)
include hB

/-- The zeros of a padding fill the last block up to its end (41_hmac.md R145). -/
theorem add_padZeros_mod : (n + 1 + padZeros B F n + F) % B = 0 := by
  have hr : (n + 1 + F) % B < B := Nat.mod_lt _ hB
  have hsum : n + 1 + padZeros B F n + F = (n + 1 + F) + padZeros B F n := by omega
  rw [hsum, padZeros, Nat.add_mod_mod, ← Nat.mod_add_mod, Nat.add_sub_of_le hr.le, Nat.mod_self]

/-- No smaller number of zeros ends at a whole block: it falls between the last block's start and its end. -/
theorem padZeros_le {z : Nat} (hz : (n + 1 + z + F) % B = 0) : padZeros B F n ≤ z := by
  have hr : (n + 1 + F) % B < B := Nat.mod_lt _ hB
  have hsum : n + 1 + z + F = (n + 1 + F) + z := by omega
  rw [hsum, ← Nat.mod_add_mod] at hz
  rw [padZeros]
  generalize (n + 1 + F) % B = r at hr hz ⊢
  obtain rfl | hpos := Nat.eq_zero_or_pos r
  · simp
  · rw [Nat.mod_eq_of_lt (by omega)]
    by_contra hlt
    rw [Nat.mod_eq_of_lt (by omega)] at hz
    omega

theorem pad_length_mod (m : List Byte) : (pad B F m).length % B = 0 := by
  have hlen : (pad B F m).length = m.length + 1 + padZeros B F m.length + F := by
    simp only [pad, List.length_append, List.length_singleton, List.length_replicate, beBytes_length]
  rw [hlen, add_padZeros_mod hB]

end Padding

section BlockWords

variable {w : Nat} {block : List Byte} (hw : w = 32 ∨ w = 64) (hlen : block.length = 16 * (w / 8))
include hw hlen

/-- A block has as many pieces as it has words. -/
theorem length_div_wordBytes : block.length / (w / 8) = 16 := by
  rw [hlen]
  exact Nat.mul_div_cancel 16 (by omega)

theorem blockWords_length : (blockWords w block).length = 16 := by
  rw [blockWords, List.length_map, pieces_length, length_div_wordBytes hw hlen]

theorem blockWords_getElem? {j : Nat} (hj : j < 16) : (blockWords w block)[j]? =
    some (BitVec.ofNat w (beInt ((block.drop (j * (w / 8))).take (w / 8)))) := by
  rw [← length_div_wordBytes hw hlen] at hj
  rw [blockWords, List.getElem?_map, pieces_getElem? _ _ _ hj, Option.map_some]

end BlockWords

/-- Settles O32: `padZeros` is the least z, and the padded message is a whole number of blocks. -/
theorem paddingIsLeast : Obligations.PaddingIsLeast := by
  refine ⟨fun B F m hB => ?_, fun w block hw hlen => ?_⟩
  · exact ⟨padZeros B F m.length, rfl, add_padZeros_mod hB F m.length, fun z' => padZeros_le hB F m.length,
      beBytes_length F _, beInt_beBytes F _, pieces_flatten B _ (pad_length_mod hB F m),
      fun _ => length_of_mem_pieces⟩
  · exact ⟨blockWords_length hw hlen, fun j => blockWords_getElem? hw hlen⟩

/-! ### The key of a keyed hash -/

/-- HMAC reads the key through its block key alone (41_hmac.md R140). -/
theorem hmac_congr {a : Alg} {key key' : List Byte} (h : hmacBlockKey a key = hmacBlockKey a key') (m : List Byte) :
    hmac a key m = hmac a key' m := by
  simp only [hmac, h]

theorem hmacBlockKey_of_le {a : Alg} {key : List Byte} (h : key.length ≤ a.blockBytes) :
    hmacBlockKey a key = key ++ List.replicate (a.blockBytes - key.length) 0 := by
  rw [hmacBlockKey, if_neg (by omega)]

theorem outputBytes_le_blockBytes (a : Alg) : a.outputBytes ≤ a.blockBytes := by cases a <;> decide

/-- A long key is hashed, and its digest fits a block, so it is not hashed again. -/
theorem hmacBlockKey_hashWith {a : Alg} {key : List Byte} (h : a.blockBytes < key.length) :
    hmacBlockKey a key = hmacBlockKey a (hashWith a key) := by
  have hfit : (hashWith a key).length ≤ a.blockBytes := by
    rw [hashWith_length]
    exact outputBytes_le_blockBytes a
  rw [hmacBlockKey_of_le hfit, hmacBlockKey, if_pos h]

/-- A zero byte appended to a short key is one of the zeros it is padded with. -/
theorem hmacBlockKey_append_zero {a : Alg} {key : List Byte} (h : key.length < a.blockBytes) :
    hmacBlockKey a key = hmacBlockKey a (key ++ [0x00]) := by
  have hlen : (key ++ [(0x00 : Byte)]).length = key.length + 1 := by simp
  have hzeros : a.blockBytes - key.length = a.blockBytes - (key.length + 1) + 1 := by omega
  rw [hmacBlockKey_of_le h.le, hmacBlockKey_of_le (hlen ▸ h), hlen, hzeros, List.replicate_succ, List.append_cons]

/-- Settles O33: both keys have the same block key. -/
theorem hmacKeyNormalisation : Obligations.HmacKeyNormalisation :=
  fun _ _ m => ⟨fun h => hmac_congr (hmacBlockKey_hashWith h) m, fun h => hmac_congr (hmacBlockKey_append_zero h) m⟩

/-! ### The command HMAC -/

theorem algOfCode_eq_some_iff_algIs {s : State} {a : Alg} : algOfCode s.alg = some a ↔ AlgIs s a :=
  algOfCode_eq_some s.alg a

theorem algOfCode_eq_none (c : BitVec 8) : algOfCode c = none ↔ 3 ≤ c.toNat := by
  revert c; decide

theorem keyTooLong_eq_false (s : State) : s.keyTooLong = false ↔ s.keyLen.toNat ≤ 128 := by
  rw [← Bool.not_eq_true, keyTooLong_eq_true, Nat.not_lt]

theorem exec_hmac_of_invalid {s : State} (h : s.valid.cbuf = false ∨ s.valid.key = false) :
    exec .hmac s = .next (s.fail .missingInput) := by
  have hv : (s.valid.cbuf && s.valid.key) = false := Bool.and_eq_false_iff.mpr h
  exact exec_of_error (by simp [runOf, runHmac, hv])

section ValidInputs

variable {s : State} (hcbuf : s.valid.cbuf = true) (hkey : s.valid.key = true)
include hcbuf hkey

theorem exec_hmac_of_unsupported (h : algOfCode s.alg = none) :
    exec .hmac s = .next (s.fail .unsupportedAlg) :=
  exec_of_error (by simp [runOf, runHmac, hcbuf, hkey, h])

theorem exec_hmac_of_long {a : Alg} (h : algOfCode s.alg = some a) (hlong : s.keyTooLong = true) :
    exec .hmac s = .next (s.fail .keyLength) :=
  exec_of_error (by simp [runOf, runHmac, hcbuf, hkey, h, hlong])

theorem exec_hmac_of_ok {a : Alg} (h : algOfCode s.alg = some a) (hfit : s.keyTooLong = false) :
    exec .hmac s = .next (s.commitHs (hmac a s.secret s.cbuf.toList)).succeed :=
  exec_of_ok (by simp [runOf, runHmac, hcbuf, hkey, h, hfit])

end ValidInputs

/-- Settles O16: the checks in priority order decide the branch, and the hash committed has the length of R141. -/
theorem hmacResult : Obligations.HmacResult := by
  intro s
  refine ⟨exec_hmac_of_invalid, fun hcbuf hkey => ⟨fun halg => ?_, fun halg hlong => ?_, fun a halg hfit => ?_⟩⟩
  · exact exec_hmac_of_unsupported hcbuf hkey ((algOfCode_eq_none s.alg).mpr halg)
  · have hsome : algOfCode s.alg ≠ none := fun hnone => absurd ((algOfCode_eq_none s.alg).mp hnone) (by omega)
    obtain ⟨a, ha⟩ := Option.ne_none_iff_exists'.mp hsome
    exact exec_hmac_of_long hcbuf hkey ha ((keyTooLong_eq_true s).mpr hlong)
  · rw [exec_hmac_of_ok hcbuf hkey (algOfCode_eq_some_iff_algIs.mpr halg) ((keyTooLong_eq_false s).mpr hfit),
      ← outputBytes_eq_digestBytes, ← hmac_length a s.secret s.cbuf.toList]
    rfl

end Sys2Proof.Proofs
end

section
/-! SUPPORT. Truncation and reduction (42_truncate_reduce.md R200 to R210): the bytes the truncation reads and the
integer they make, the reach of its range check, and the decimal string of a code. -/

open Sys2Proof Sys2Proof.Machine Sys2Proof.Claims

namespace Sys2Proof.Proofs

/-! ### The value of a truncation -/

/-- The low nibble of the last byte, as a number (42_truncate_reduce.md R200). -/
theorem truncOffset_toNat (h : List Byte) : (truncOffset h).toNat = (byteAt h (h.length - 1)).toNat % 16 :=
  BitVec.toNat_setWidth 4 _

/-- The four bytes of the window do not overlap, and masking the first one drops bit 31 of their integer. -/
theorem truncWindow_eq (h : List Byte) (n : Nat) : truncWindow h n =
    BitVec.ofNat 32 (beInt [byteAt h n, byteAt h (n + 1), byteAt h (n + 2), byteAt h (n + 3)] % 2 ^ 31) := by
  have hor (a : Nat) {b k : Nat} (hb : b < 2 ^ k) : a * 2 ^ k ||| b = a * 2 ^ k + b := by
    rw [← Nat.shiftLeft_eq, Nat.shiftLeft_add_eq_or_of_lt hb]
  have hmask : (byteAt h n &&& 0x7F).toNat = (byteAt h n).toNat % 2 ^ 7 := Nat.and_two_pow_sub_one_eq_mod _ 7
  have hbyte (j : Nat) : (byteAt h j).toNat < 256 := (byteAt h j).isLt
  have hb0 := hbyte n
  have hb1 := hbyte (n + 1)
  have hb2 := hbyte (n + 2)
  have hb3 := hbyte (n + 3)
  apply BitVec.eq_of_toNat_eq
  simp only [truncWindow, BitVec.toNat_or, BitVec.toNat_shiftLeft, BitVec.toNat_setWidth, Nat.shiftLeft_eq, hmask,
    BitVec.toNat_ofNat, beInt, List.foldl_cons, List.foldl_nil, Nat.or_assoc]
  simp (disch := omega) only [Nat.mod_eq_of_lt, hor]
  omega

/-! ### The stored hash -/

theorem byteAt_hash {s : State} {i : Nat} (hi : i < s.hsLen.toNat) : byteAt s.hash i = bufferByte s.hs i := by
  simp [byteAt, bufferByte, State.hash, List.getD_eq_getElem?_getD, hi]

theorem hash_length {s : State} (hle : s.hsLen.toNat ≤ 64) : s.hash.length = s.hsLen.toNat := by
  simpa [State.hash] using hle

theorem truncOffset_hash {s : State} (hpos : 1 ≤ s.hsLen.toNat) (hle : s.hsLen.toNat ≤ 64) :
    (truncOffset s.hash).toNat = (bufferByte s.hs (s.hsLen.toNat - 1)).toNat % 16 := by
  rw [truncOffset_toNat, hash_length hle, byteAt_hash (by omega)]

theorem truncWindow_hash {s : State} {off : Nat} (hfit : off + 4 ≤ s.hsLen.toNat) : truncWindow s.hash off =
    BitVec.ofNat 32 (beInt [bufferByte s.hs off, bufferByte s.hs (off + 1), bufferByte s.hs (off + 2),
      bufferByte s.hs (off + 3)] % 2 ^ 31) := by
  rw [truncWindow_eq]
  simp (disch := omega) only [byteAt_hash]

/-! ### TRUNC -/

theorem exec_trunc_of_invalid {s : State} (h : s.valid.hs = false) :
    exec .trunc s = .next (s.fail .missingInput) :=
  exec_of_error (by simp [runOf, runTrunc, h])

theorem exec_trunc_of_error {s : State} {e : ErrCode} (hv : s.valid.hs = true) (h : truncate s.hash = .error e) :
    exec .trunc s = .next (s.fail e) :=
  exec_of_error (by simp [runOf, runTrunc, hv, h])

theorem exec_trunc_of_ok {s : State} {o : BitVec 4} {x : Word} (hv : s.valid.hs = true)
    (h : truncate s.hash = .ok (o, x)) : exec .trunc s = .next (s.commitOtp o x).succeed :=
  exec_of_ok (by simp [runOf, runTrunc, hv, h])

/-- Settles O17: the range check on the stored hash decides the branch, and its window holds the integer committed. -/
theorem truncResult : Obligations.TruncResult := by
  intro s
  refine ⟨exec_trunc_of_invalid, fun off hv hpos hle hoff => ?_⟩
  have hlen := hash_length hle
  rw [← truncOffset_hash hpos hle] at hoff
  subst hoff
  refine ⟨fun hshort => ?_, fun hfit => ?_⟩
  · exact exec_trunc_of_error hv ((truncate_error_iff _ _).mpr ⟨by rwa [hlen], rfl⟩)
  · rw [exec_trunc_of_ok hv ((truncate_ok_iff _ _ _).mpr ⟨by rwa [hlen], rfl, rfl⟩), truncWindow_hash hfit,
      BitVec.ofNat_toNat, BitVec.setWidth_eq]
    rfl

/-! ### The range check never fails -/

/-- The window ends at byte 18 at the latest (42_truncate_reduce.md R203). -/
theorem truncate_ne_error {h : List Byte} (hlen : 19 ≤ h.length) (e : ErrCode) : truncate h ≠ .error e := by
  intro he
  obtain ⟨hshort, -⟩ := (truncate_error_iff h e).mp he
  have hoff := truncOffset_lt h
  omega

theorem le_hmac_length (a : Alg) (k m : List Byte) : 19 ≤ (hmac a k m).length := by
  rw [hmac_length]
  cases a <;> decide

theorem le_hash_length {s : State} (h : s.HashSound) (hv : s.valid.hs = true) : 19 ≤ s.hash.length := by
  obtain ⟨hlen, -, -⟩ := h
  have hcases := hlen hv
  rw [hash_length (by omega)]
  omega

theorem timeStep_ne_truncRange (time t0 x : Int) : timeStep time t0 x ≠ .error .truncRange := by
  intro h
  obtain ⟨-, he⟩ | ⟨-, -, he⟩ := (timeStep_error_iff _ _ _ _).mp h <;> cases he

theorem runTrunc_ne_truncRange {s : State} (hs : s.HashSound) : runTrunc s ≠ .error .truncRange := by
  intro h
  obtain ⟨-, he⟩ | ⟨hv, ⟨e, ht, he⟩ | ⟨o, x, -, he⟩⟩ := runTrunc_cases s <;> cases he.symm.trans h
  exact truncate_ne_error (le_hash_length hs hv) _ ht

/-- A fused command truncates a hash it has just computed, whatever the stored one is. -/
theorem computeCode_ne_truncRange (s : State) (c : Nat) : computeCode s c ≠ .error .truncRange := by
  intro h
  obtain ⟨-, he⟩ | ⟨a, -, ⟨-, he⟩ | ⟨d, -, ⟨-, he⟩ | ⟨-, ⟨e, ht, he⟩ | ⟨o, x, -, he⟩⟩⟩⟩ := computeCode_cases s c <;>
    cases he.symm.trans h
  exact truncate_ne_error (le_hmac_length a _ _) _ ht

theorem runTotp_ne_truncRange (s : State) : runTotp s ≠ .error .truncRange := by
  intro h
  obtain ⟨-, he⟩ | ⟨-, ⟨e, ht, he⟩ | ⟨c, -, ⟨e, hc, he⟩ | ⟨u, -, he⟩⟩⟩ := runTotp_cases s <;> cases he.symm.trans h
  · exact timeStep_ne_truncRange _ _ _ ht
  · exact computeCode_ne_truncRange s c hc

theorem runOf_ne_truncRange (i : Instr) {s : State} (hs : s.HashSound) : runOf i s ≠ .error .truncRange := by
  intro h
  cases i with
  | nop => cases h
  | ser => obtain ⟨-, he⟩ | ⟨-, he⟩ := runSer_cases s <;> cases he.symm.trans h
  | tstep =>
    obtain ⟨-, he⟩ | ⟨-, ⟨e, ht, he⟩ | ⟨c, -, he⟩⟩ := runTstep_cases s <;> cases he.symm.trans h
    exact timeStep_ne_truncRange _ _ _ ht
  | hmac => obtain ⟨-, he⟩ | ⟨-, ⟨-, he⟩ | ⟨a, -, ⟨-, he⟩ | ⟨-, he⟩⟩⟩ := runHmac_cases s <;> cases he.symm.trans h
  | trunc => exact runTrunc_ne_truncRange hs h
  | reduce => obtain ⟨-, he⟩ | ⟨-, ⟨-, he⟩ | ⟨d, -, he⟩⟩ := runReduce_cases s <;> cases he.symm.trans h
  | hotp =>
    obtain ⟨-, he⟩ | ⟨-, he⟩ := runHotp_cases s
    · cases he.symm.trans h
    · exact computeCode_ne_truncRange s _ (he.symm.trans h)
  | totp => exact runTotp_ne_truncRange s h
  | clear => cases h

/-- Settles O18: only a failing operation reports a code other than 0, and none fails with TRUNC_RANGE. -/
theorem truncRangeIsUnreachable : Obligations.TruncRangeIsUnreachable := by
  intro i s t hs ht hcode
  rw [exec_eq_finish] at ht
  obtain ⟨u, -, hf⟩ | ⟨e, he, hf⟩ := finish_cases s (runOf i s) <;> cases hf.symm.trans ht
  · exact absurd hcode (by simp)
  · cases e.code_injective .truncRange hcode
    exact runOf_ne_truncRange i hs he

/-! ### The decimal string of a code -/

/-- A decimal digit and its ASCII byte (42_truncate_reduce.md R207). -/
theorem asciiDigit_toNat (n : Nat) : (BitVec.ofNat 8 (0x30 + n % 10)).toNat = 0x30 + n % 10 := by
  rw [BitVec.toNat_ofNat]
  omega

theorem formatCode_getD (c d : Nat) {i : Nat} (hi : i < d) (b : Byte) :
    (formatCode c d).getD i b = BitVec.ofNat 8 (0x30 + c / 10 ^ (d - 1 - i) % 10) := by
  simp [formatCode, List.getD_eq_getElem?_getD, hi]

/-- The DIGBUF of a code: its digits, and 0x00 from the digit count on (42_truncate_reduce.md R206). -/
theorem bufferOf_formatCode_getElem (c d : Nat) {i : Nat} (hi : i < 12) : (bufferOf 12 (formatCode c d))[i] =
    if i < d then BitVec.ofNat 8 (0x30 + c / 10 ^ (d - 1 - i) % 10) else 0 := by
  rw [bufferOf_getElem]
  by_cases hd : i < d
  · rw [formatCode_getD c d hd, if_pos hd]
  · rw [List.getD_eq_default _ _ (by simpa using hd), if_neg hd]

/-- Dropping the last digit of a code drops the last character of its string. -/
theorem formatCode_succ (c d : Nat) :
    formatCode c (d + 1) = formatCode (c / 10) d ++ [BitVec.ofNat 8 (0x30 + c % 10)] := by
  have hdigit : ∀ i ∈ List.range d, BitVec.ofNat 8 (0x30 + c / 10 ^ (d - i) % 10) =
      BitVec.ofNat 8 (0x30 + c / 10 / 10 ^ (d - 1 - i) % 10) := by
    intro i hi
    have hi : i < d := List.mem_range.mp hi
    have hplace : d - i = d - 1 - i + 1 := by omega
    rw [Nat.div_div_eq_div_mul, ← pow_succ', hplace]
  simp only [formatCode, List.range_succ, List.map_append, List.map_cons, List.map_nil, Nat.add_sub_cancel,
    Nat.sub_self, pow_zero, Nat.div_one]
  rw [List.map_congr_left hdigit]

theorem decimalValue_concat (l : List Byte) (b : Byte) :
    decimalValue (l ++ [b]) = decimalValue l * 10 + (b.toNat - 0x30) := by
  simp [decimalValue]

/-- The string of d characters has the value of the code's last d digits (42_truncate_reduce.md R205). -/
theorem decimalValue_formatCode (c d : Nat) : decimalValue (formatCode c d) = c % 10 ^ d := by
  induction d generalizing c with
  | zero => rw [pow_zero, Nat.mod_one]; rfl
  | succ d ih =>
    rw [formatCode_succ, decimalValue_concat, ih, asciiDigit_toNat, pow_succ', Nat.mod_mul]
    omega

/-! ### REDUCE -/

theorem exec_reduce_of_invalid {s : State} (h : s.valid.otp = false) :
    exec .reduce s = .next (s.fail .missingInput) :=
  exec_of_error (by simp [runOf, runReduce, h])

theorem exec_reduce_of_badDigits {s : State} (hv : s.valid.otp = true) (h : s.digitCount? = none) :
    exec .reduce s = .next (s.fail .invalidDigits) :=
  exec_of_error (by simp [runOf, runReduce, hv, h])

theorem exec_reduce_of_ok {s : State} {d : Nat} (hv : s.valid.otp = true) (h : s.digitCount? = some d) :
    exec .reduce s = .next (s.commitReduced s.otp31.toNat d).succeed :=
  exec_of_ok (by simp [runOf, runReduce, hv, h])

/-- A commit of a code for the configured digit count, field by field (42_truncate_reduce.md R206). -/
theorem commitReduced_digits (s : State) (otp : Nat) : s.commitReduced otp s.digits.toNat =
    { s with code := BitVec.ofNat 32 (otp % 10 ^ s.digits.toNat)
             codeLen := s.digits
             digbuf := bufferOf 12 (formatCode (otp % 10 ^ s.digits.toNat) s.digits.toNat)
             valid := { s.valid with code := true } } := by
  rw [State.commitReduced_eq, State.commitCode, BitVec.ofNat_toNat, BitVec.setWidth_eq]
  rfl

/-- Settles O19: OTP_V and the digit count decide the branch, and DIGBUF is the string of the remainder. -/
theorem reduceResult : Obligations.ReduceResult := by
  intro s
  refine ⟨exec_reduce_of_invalid, fun hv hd => ?_, fun hv hmin hmax => ?_⟩
  · exact exec_reduce_of_badDigits hv ((digitCount_eq_none s).mpr hd)
  · have hbuf : bufferOf 12 (formatCode (s.otp31.toNat % 10 ^ s.digits.toNat) s.digits.toNat) =
        Vector.ofFn fun i => if i.val < s.digits.toNat then
          BitVec.ofNat 8 (0x30 + s.otp31.toNat % 10 ^ s.digits.toNat / 10 ^ (s.digits.toNat - 1 - i.val) % 10)
        else 0 := by
      apply Vector.ext
      intro i hi
      rw [bufferOf_formatCode_getElem _ _ hi, Vector.getElem_ofFn]
    rw [exec_reduce_of_ok hv ((digitCount_eq_some s _).mpr ⟨rfl, hmin, hmax⟩), commitReduced_digits, hbuf]
    rfl

/-! ### The code that every command leaves -/

/-- The fields of a code do not depend on the state it is committed to. -/
theorem commitReduced_codeSound (s : State) {otp d : Nat} (hotp : otp < 2 ^ 31) (hd : 1 ≤ d ∧ d ≤ 10) :
    (s.commitReduced otp d).CodeSound :=
  (inv_commitReduced resetIsSound rfl hotp hd).code

theorem codeSound_commitCounter {s : State} (h : s.CodeSound) (c : Nat) : (s.commitCounter c).CodeSound := h

/-- The commands that produce a code. -/
def ProducesCode (i : Instr) : Prop := i = .reduce ∨ i = .hotp ∨ i = .totp

theorem Commits.codeSound {i : Instr} {s u : State} (hc : Commits s i u) (hi : ProducesCode i)
    (hotp : s.otp31.toNat < 2 ^ 31) : u.CodeSound ∧ u.valid.code = true := by
  obtain rfl | rfl | rfl := hi <;> cases hc
  case reduce hd => exact ⟨commitReduced_codeSound _ hotp hd, rfl⟩
  case hotp ht hd => exact ⟨commitReduced_codeSound _ (truncate_ok_lt ht) hd, rfl⟩
  case totp ht hd => exact ⟨codeSound_commitCounter (commitReduced_codeSound _ (truncate_ok_lt ht) hd) _, rfl⟩

theorem commitReduced_codeLen {s : State} {d : Nat} (hd : s.digitCount? = some d) (u : State) (otp : Nat) :
    (u.commitReduced otp d).codeLen = s.digits := by
  obtain ⟨rfl, -⟩ := (digitCount_eq_some s d).mp hd
  simp

theorem computeCode_codeLen {s t : State} {c : Nat} (h : computeCode s c = .ok t) : t.codeLen = s.digits := by
  obtain ⟨-, he⟩ | ⟨a, -, ⟨-, he⟩ | ⟨d, hd, ⟨-, he⟩ | ⟨-, ⟨e, -, he⟩ | ⟨o, x, -, he⟩⟩⟩⟩ := computeCode_cases s c <;>
    cases he.symm.trans h
  exact commitReduced_codeLen hd _ _

/-- CODELEN records the digit count at the time of the command (42_truncate_reduce.md R208). -/
theorem runOf_codeLen {i : Instr} {s u : State} (hi : ProducesCode i) (h : runOf i s = .ok u) :
    u.codeLen = s.digits := by
  obtain rfl | rfl | rfl := hi
  · obtain ⟨-, he⟩ | ⟨-, ⟨-, he⟩ | ⟨d, hd, he⟩⟩ := runReduce_cases s <;> cases he.symm.trans h
    exact commitReduced_codeLen hd _ _
  · obtain ⟨-, he⟩ | ⟨-, he⟩ := runHotp_cases s
    · cases he.symm.trans h
    · exact computeCode_codeLen (he.symm.trans h)
  · obtain ⟨-, he⟩ | ⟨-, ⟨e, -, he⟩ | ⟨c, -, ⟨e, -, he⟩ | ⟨v, hv, he⟩⟩⟩ := runTotp_cases s <;>
      cases he.symm.trans h
    exact (State.commitCounter_codeLen v c).trans (computeCode_codeLen hv)

/-- A completion with ERRCODE 0 is the commit of an operation that succeeded. -/
theorem exec_success {i : Instr} {s t : State} (h : exec i s = .next t) (h0 : t.status.errCode = 0) :
    ∃ u, runOf i s = .ok u ∧ t = u.succeed := by
  rw [exec_eq_finish] at h
  obtain ⟨u, hu, hf⟩ | ⟨e, -, hf⟩ := finish_cases s (runOf i s) <;> cases hf.symm.trans h
  · exact ⟨u, hu, rfl⟩
  · exact absurd h0 e.code_ne_zero

/-- Settles O26: a valid code is sound after each of the three commands, and a sound code's string reads back. -/
theorem outputInvariants : Obligations.OutputInvariants := by
  intro i s t hi hotp ht h0
  obtain ⟨u, hu, rfl⟩ := exec_success ht h0
  obtain ⟨⟨-, hsound, -⟩, hvalid⟩ := (runOf_commits hu).codeSound hi hotp
  obtain ⟨-, hmax, hlt, hbuf⟩ := hsound hvalid
  simp only [State.succeed_eq, State.setStatus_codeLen, State.setStatus_code, State.setStatus_digbuf, hbuf,
    Fin.getElem_fin]
  refine ⟨runOf_codeLen hi hu, by omega, ?_, fun j hj => ?_, fun j hj => ?_⟩
  · have htake := bufferOf_take 12 (formatCode u.code.toNat u.codeLen.toNat) (by rw [formatCode_length]; omega)
    rw [formatCode_length] at htake
    rw [htake, decimalValue_formatCode, Nat.mod_eq_of_lt hlt]
  · rw [bufferOf_formatCode_getElem _ _ j.isLt, if_pos hj, asciiDigit_toNat]
    omega
  · rw [bufferOf_formatCode_getElem _ _ j.isLt, if_neg (by omega)]

end Sys2Proof.Proofs
end

section
/-! SUPPORT. The command cycle (43_fused_control.md R230 to R232, R239): acceptance, the engine's turn that completes
the pending command, what else can end BUSY, and a host at the window in between. -/

open Sys2Proof Sys2Proof.Machine Sys2Proof.Claims

namespace Sys2Proof.Proofs

/-! ### Acceptance and the engine's turn -/

theorem completePending_of_decode {s : State} {i : Instr} (h : decode s.pending = .ok i) :
    completePending s = exec i s := by
  simp [completePending, h]

/-- Settles O5: either kind of engine's turn completes the pending word, which decodes to the command. -/
theorem stepRunsDecodedCommand : Obligations.StepRunsDecodedCommand := by
  intro s i rest hr hbusy hdec
  refine ⟨fun hin => ?_, fun hin => ?_⟩
  · exact (step_engine_of_busy hin hr hbusy).trans (completePending_of_decode (s := s.setInputs rest) hdec)
  · rw [step_nil hin, engineTurn_of_busy hr hbusy, completePending_of_decode hdec]

/-- Placing a word of 32 bits is its acceptance with `rst` low and the engine's turn next (assumption log 4). -/
theorem withFetchWord_eq_accepted (s : State) (w : Word) : s.withFetchWord 32 w.toNat =
    { accepted { s with rst := false } w with inputs := .engine :: s.inputs } := by
  rw [State.withFetchWord, Nat.mod_eq_of_lt w.isLt, BitVec.ofNat_toNat, BitVec.setWidth_eq]
  rfl

/-- Settles O6: the placed state is busy with the engine's turn next, and its PENDING decodes to the command. -/
theorem placedCommandIsRunNext : Obligations.PlacedCommandIsRunNext := by
  intro s i
  obtain ⟨hengine, -⟩ := stepRunsDecodedCommand (s.withFetchWord 32 (encode i).toNat) i s.inputs rfl rfl
    (by rw [withFetchWord_eq_accepted]; exact decode_encode i)
  rw [hengine rfl, withFetchWord_eq_accepted]
  rfl

/-- Settles O7: CMD is among the blocked words, and while idle its write is the acceptance, which clears DONE. -/
theorem commandAcceptance : Obligations.CommandAcceptance := by
  intro s w
  refine ⟨fun hbusy => writeReg_of_blocked hbusy rfl w, fun hidle => ?_⟩
  rw [writeReg_cmd_of_idle hidle]
  exact ⟨rfl, Bool.and_false _⟩

/-- A run of one step is that step. Stated for any machine, as `run_of_step_next` is. -/
theorem run_one (M : Host.Core) (s : M.State) : M.run 1 s = M.step s := by
  simp only [Host.Core.run]
  cases M.step s <;> rfl

/-- Settles O8: the first step is the write, an acceptance while idle, and the second the engine's turn. -/
theorem issuedCommandCompletes : Obligations.IssuedCommandCompletes := by
  intro s i hr hidle hin
  have hwrite : step s = .next (accepted { s with inputs := [.engine], reply := some .writeDone } (encode i)) := by
    rw [writesTakeEffect s .cmd (.window 0x00C) (encode i) [.engine] hr rfl (.inl hin),
      writeReg_cmd_of_idle (s := { s with inputs := [.engine] }) hidle]
    rfl
  obtain ⟨hengine, -⟩ := stepRunsDecodedCommand
    (accepted { s with inputs := [.engine], reply := some .writeDone } (encode i)) i [] hr rfl (decode_encode i)
  exact (run_of_step_next core 1 s _ hwrite).trans ((run_one core _).trans (hengine rfl))

/-- Settles O12: NOP commits the state as it is. -/
theorem nopResult : Obligations.NopResult := fun s => exec_of_ok (i := .nop) (s := s) rfl

/-! ### What ends BUSY -/

theorem exec_done {i : Instr} {s t : State} (h : exec i s = .next t) : t.status.done = true := by
  obtain ⟨e, rfl⟩ | ⟨u, -, rfl⟩ := exec_next h <;> rfl

theorem completePending_done {s t : State} (h : completePending s = .next t) : t.status.done = true := by
  obtain rfl | ⟨i, -, hx⟩ := completePending_next h
  · rfl
  · exact exec_done hx

/-- While BUSY = 1 an engine's turn is a completion, or a turn in a held reset. -/
theorem engineTurn_next_of_busy {s t : State} (hbusy : s.status.busy = true) (h : engineTurn s = .next t) :
    (s.rst = false ∧ t.status.done = true) ∨ t = s.resetTo true := by
  obtain ⟨-, he⟩ | ⟨hr, -, he⟩ | ⟨-, hidle, -⟩ := engineTurn_cases s
  · cases he.symm.trans h
    exact .inr rfl
  · exact .inl ⟨hr, completePending_done (he.symm.trans h)⟩
  · exact absurd hbusy (by simp [hidle])

theorem busy_of_hostStep {s t : State} {a : Access} (hbusy : s.status.busy = true)
    (h : deliver s (.access a) = .next t ∨ deliver s (.probe a) = .next t) : t.status.busy = true := by
  rw [hostStepsWhileBusyChangeOnlyCtrlAndStatus s t a hbusy h]

/-- Settles O10: a host step keeps BUSY, a change of `rst` resets or does nothing, and the rest are engine's turns. -/
theorem onlyCompletionOrResetEndsBusy : Obligations.OnlyCompletionOrResetEndsBusy := by
  intro s t ht hbusy hidle
  cases hin : s.inputs with
  | nil =>
    obtain ⟨hr, hdone⟩ | rfl := engineTurn_next_of_busy hbusy ((step_nil hin).symm.trans ht)
    · exact .inl ⟨hr, .inl rfl, hdone⟩
    · exact .inr rfl
  | cons e rest =>
    have hd : deliver (s.setInputs rest) e = .next t := (step_cons hin).symm.trans ht
    cases e with
    | access a => exact absurd (busy_of_hostStep (s := s.setInputs rest) hbusy (.inl hd)) (by simp [hidle])
    | probe a => exact absurd (busy_of_hostStep (s := s.setInputs rest) hbusy (.inr hd)) (by simp [hidle])
    | engine =>
      obtain ⟨hr, hdone⟩ | rfl := engineTurn_next_of_busy (s := s.setInputs rest) hbusy hd
      · exact .inl ⟨hr, .inr ⟨rest, rfl⟩, hdone⟩
      · exact .inr rfl
    | rst level =>
      cases hd
      obtain he | ⟨-, -, he⟩ := driveReset_cases (s.setInputs rest) level
      · rw [he]
        exact .inr rfl
      · rw [he] at hidle
        exact absurd hbusy (by simpa using hidle)

/-! ### A host at the window while a command runs -/

/-- What a host can change while a command runs (70_reset_and_hazards.md R310, R311), and the model's own fields. -/
structure HostSide where
  ctrlIe : Bool
  status : Status
  inputs : List Event
  reply  : Option BusReply

/-- `s` with the host's side of it replaced. -/
def withHostSide (s : State) (h : HostSide) : State :=
  { s with ctrlIe := h.ctrlIe, status := h.status, inputs := h.inputs, reply := h.reply }

section Operands

variable (s : State) (h : HostSide)

@[simp] theorem withHostSide_alg : (withHostSide s h).alg = s.alg := rfl
@[simp] theorem withHostSide_valid : (withHostSide s h).valid = s.valid := rfl
@[simp] theorem withHostSide_cbuf : (withHostSide s h).cbuf = s.cbuf := rfl
@[simp] theorem withHostSide_otp31 : (withHostSide s h).otp31 = s.otp31 := rfl
@[simp] theorem withHostSide_counter : (withHostSide s h).counter = s.counter := rfl
@[simp] theorem withHostSide_time : (withHostSide s h).time = s.time := rfl
@[simp] theorem withHostSide_t0 : (withHostSide s h).t0 = s.t0 := rfl
@[simp] theorem withHostSide_periodSeconds : (withHostSide s h).periodSeconds = s.periodSeconds := rfl
@[simp] theorem withHostSide_secret : (withHostSide s h).secret = s.secret := rfl
@[simp] theorem withHostSide_hash : (withHostSide s h).hash = s.hash := rfl
@[simp] theorem withHostSide_keyTooLong : (withHostSide s h).keyTooLong = s.keyTooLong := rfl
@[simp] theorem withHostSide_digitCount : (withHostSide s h).digitCount? = s.digitCount? := rfl

/-- The part HOTP and TOTP share reads nothing of the host's side and commits beside it. -/
theorem computeCode_withHostSide (c : Nat) :
    computeCode (withHostSide s h) c = (computeCode s c).map (withHostSide · h) := by
  rw [computeCode, computeCode, withHostSide_alg, withHostSide_digitCount, withHostSide_keyTooLong,
    withHostSide_secret]
  cases algOfCode s.alg with
  | none => rfl
  | some a =>
    cases s.digitCount? with
    | none => rfl
    | some d =>
      cases s.keyTooLong with
      | true => rfl
      | false =>
        dsimp only
        cases truncate (hmac a s.secret (serializeCounter c)) <;> rfl

theorem runSer_withHostSide : runSer (withHostSide s h) = (runSer s).map (withHostSide · h) := by
  rw [runSer, runSer, withHostSide_valid, withHostSide_counter]
  cases s.valid.counter <;> rfl

theorem runTstep_withHostSide : runTstep (withHostSide s h) = (runTstep s).map (withHostSide · h) := by
  rw [runTstep, runTstep, withHostSide_valid, withHostSide_time, withHostSide_t0, withHostSide_periodSeconds]
  cases s.valid.time with
  | false => rfl
  | true => cases timeStep s.time s.t0 s.periodSeconds <;> rfl

theorem runHmac_withHostSide : runHmac (withHostSide s h) = (runHmac s).map (withHostSide · h) := by
  rw [runHmac, runHmac, withHostSide_valid, withHostSide_alg, withHostSide_keyTooLong, withHostSide_secret,
    withHostSide_cbuf]
  cases (s.valid.cbuf && s.valid.key) with
  | false => rfl
  | true =>
    cases algOfCode s.alg with
    | none => rfl
    | some a => cases s.keyTooLong <;> rfl

theorem runTrunc_withHostSide : runTrunc (withHostSide s h) = (runTrunc s).map (withHostSide · h) := by
  rw [runTrunc, runTrunc, withHostSide_valid, withHostSide_hash]
  cases s.valid.hs with
  | false => rfl
  | true => cases truncate s.hash <;> rfl

theorem runReduce_withHostSide : runReduce (withHostSide s h) = (runReduce s).map (withHostSide · h) := by
  rw [runReduce, runReduce, withHostSide_valid, withHostSide_digitCount, withHostSide_otp31]
  cases s.valid.otp with
  | false => rfl
  | true => cases s.digitCount? <;> rfl

theorem runHotp_withHostSide : runHotp (withHostSide s h) = (runHotp s).map (withHostSide · h) := by
  rw [runHotp, runHotp, withHostSide_valid, withHostSide_counter, computeCode_withHostSide]
  cases (s.valid.counter && s.valid.key) <;> rfl

theorem runTotp_withHostSide : runTotp (withHostSide s h) = (runTotp s).map (withHostSide · h) := by
  rw [runTotp, runTotp, withHostSide_valid, withHostSide_time, withHostSide_t0, withHostSide_periodSeconds]
  cases (s.valid.time && s.valid.key) with
  | false => rfl
  | true =>
    cases timeStep s.time s.t0 s.periodSeconds with
    | error e => rfl
    | ok c =>
      dsimp only
      rw [computeCode_withHostSide]
      cases computeCode s c <;> rfl

/-- No operation of a command reads or writes the host's side (43_fused_control.md R239). -/
theorem runOf_withHostSide (i : Instr) : runOf i (withHostSide s h) = (runOf i s).map (withHostSide · h) := by
  cases i with
  | nop | clear => rfl
  | ser => exact runSer_withHostSide s h
  | tstep => exact runTstep_withHostSide s h
  | hmac => exact runHmac_withHostSide s h
  | trunc => exact runTrunc_withHostSide s h
  | reduce => exact runReduce_withHostSide s h
  | hotp => exact runHotp_withHostSide s h
  | totp => exact runTotp_withHostSide s h

end Operands

/-- The host's side after a completion with code `e`. -/
def HostSide.completed (h : HostSide) (e : BitVec 4) : HostSide := { h with status := h.status.completed e }

/-- A command completes with the same code whatever the host's side is, and leaves the same state beside it. -/
theorem exec_withHostSide (i : Instr) (s : State) (h : HostSide) : ∃ (u : State) (e : BitVec 4),
    exec i s = .next u ∧ u.status = s.status.completed e ∧
      exec i (withHostSide s h) = .next (withHostSide u (h.completed e)) := by
  have hrun := runOf_withHostSide s h i
  cases hs : runOf i s with
  | ok v =>
    rw [hs] at hrun
    exact ⟨v.succeed, 0, exec_of_ok hs, congrArg (·.completed 0) (runOf_commits hs).status, exec_of_ok hrun⟩
  | error e =>
    rw [hs] at hrun
    exact ⟨s.fail e, e.code, exec_of_error hs, rfl, exec_of_error hrun⟩

theorem completePending_withHostSide (s : State) (h : HostSide) : ∃ (u : State) (e : BitVec 4),
    completePending s = .next u ∧ u.status = s.status.completed e ∧
      completePending (withHostSide s h) = .next (withHostSide u (h.completed e)) := by
  cases hd : decode s.pending with
  | ok i =>
    rw [completePending_of_decode hd, completePending_of_decode (s := withHostSide s h) hd]
    exact exec_withHostSide i s h
  | error err =>
    have hill : IllegalWord s.pending := decode_eq_error_iff.mp ⟨err, hd⟩
    exact ⟨_, 1, completePending_of_illegalWord hill, rfl, completePending_of_illegalWord (s := withHostSide s h) hill⟩

/-- `h` is a host's side that `s` can have after host steps while BUSY = 1: BUSY and LASTOP are those of `s`. -/
def HostSide.Follows (h : HostSide) (s : State) : Prop := h.status.busy = true ∧ h.status.lastOp = s.status.lastOp

/-- A probe of the window is answered, and while BUSY = 1 it changes the host's side alone. -/
theorem step_probe_of_busy {s : State} {a : Access} {off : Nat} {rest : List Event}
    (hoff : a.busAddr.windowOffset = some off) (hr : s.rst = false) (hbusy : s.status.busy = true)
    (hin : s.inputs = .probe a :: rest) :
    ∃ h : HostSide, h.Follows s ∧ h.inputs = rest ∧ step s = .next (withHostSide s h) := by
  obtain ⟨t, ht⟩ : ∃ t, deliver (s.setInputs rest) (.probe a) = .next t :=
    ⟨_, hostProbe_reached (s := s.setInputs rest) hoff hr rfl⟩
  have hbits := hostStepsWhileBusyChangeOnlyCtrlAndStatus (s.setInputs rest) t a hbusy (.inr ht)
  exact ⟨⟨t.ctrlIe, { t.status with busy := true, lastOp := s.status.lastOp }, rest, t.reply⟩, ⟨rfl, rfl⟩, rfl,
    (step_cons hin).trans (ht.trans (congrArg _ hbits))⟩

/-- Probes of the window while BUSY = 1 change the host's side alone, and use up the events. -/
theorem run_probes_of_busy (accesses : List Access) {s : State} (hr : s.rst = false) (hbusy : s.status.busy = true)
    (hwin : ∀ a ∈ accesses, ∃ off, a.busAddr.windowOffset = some off) (hin : s.inputs = accesses.map Event.probe) :
    ∃ h : HostSide, h.Follows s ∧ h.inputs = [] ∧
      core.run (accesses.length + 1) s = step (withHostSide s h) := by
  induction accesses generalizing s with
  | nil => exact ⟨⟨s.ctrlIe, s.status, s.inputs, s.reply⟩, ⟨hbusy, rfl⟩, hin, run_one core s⟩
  | cons a rest ih =>
    obtain ⟨off, hoff⟩ := hwin a List.mem_cons_self
    obtain ⟨h1, ⟨hbusy1, hop1⟩, hin1, hstep⟩ := step_probe_of_busy hoff hr hbusy hin
    obtain ⟨h2, ⟨hbusy2, hop2⟩, hin2, hrun⟩ := ih (s := withHostSide s h1) hr hbusy1
      (fun b hb => hwin b (List.mem_cons_of_mem a hb)) hin1
    exact ⟨h2, ⟨hbusy2, hop2.trans hop1⟩, hin2, (run_of_step_next core _ s _ hstep).trans hrun⟩

/-- Settles O55: the probes change the host's side alone, which no operation reads or writes. -/
theorem completionIsIndependentOfHostSteps : Obligations.CompletionIsIndependentOfHostSteps := by
  intro s accesses hr hbusy hwin hin
  obtain ⟨h, ⟨hbusy', hop⟩, hnil, hrun⟩ := run_probes_of_busy accesses hr hbusy hwin hin
  obtain ⟨u, e, hu, hst, ht⟩ := completePending_withHostSide s h
  have hstep : step (withHostSide s h) = .next (withHostSide u (h.completed e)) := by
    rw [step_nil hnil, engineTurn_of_busy (s := withHostSide s h) hr hbusy', ht]
  have hst' : h.status.completed e = { u.status with ovr := h.status.ovr } := by
    rw [hst, Status.completed, hop]
    rfl
  refine ⟨withHostSide u (h.completed e), u, hrun.trans hstep, hu, rfl, rfl, ?_⟩
  change withHostSide u (h.completed e) = { u with
    ctrlIe := h.ctrlIe, inputs := [], reply := h.reply, status := { u.status with ovr := h.status.ovr } }
  rw [← hst', ← hnil]
  rfl

end Sys2Proof.Proofs
end

section
/-! SUPPORT. CLEAR and the fused commands (43_fused_control.md R233 to R240): what the fused computation commits, in
which order it fails, and that the four stages issued one after another commit the same. -/

open Sys2Proof Sys2Proof.Machine Sys2Proof.Claims

namespace Sys2Proof.Proofs

/-! ### The fused computation -/

/-- The commits of the four stages for the counter value `c`, the hash `h`, its truncation `o`, `x` and the digit count
`d` (43_fused_control.md R233). -/
def commitStages (s : State) (c : Nat) (h : List Byte) (o : BitVec 4) (x : Word) (d : Nat) : State :=
  (((s.commitCbuf (serializeCounter c)).commitHs h).commitOtp o x).commitReduced x.toNat d

/-- With both counter halves valid already, these commits are what the spec lists. -/
theorem commitStages_eq_withCode {s : State} (hlo : s.valid.ctrLo = true) (hhi : s.valid.ctrHi = true) (c : Nat)
    (h : List Byte) (o : BitVec 4) (x : Word) (d : Nat) : commitStages s c h o x d = withCode s c h o x d := by
  have hvalid : { s.valid with cbuf := true, hs := true, otp := true, code := true } =
      (withCode s c h o x d).valid := by
    simp [withCode, hlo, hhi]
  exact congrArg (fun v : Valid => { withCode s c h o x d with valid := v }) hvalid

/-- What the fused computation needs to succeed, and what it hashes and truncates then. -/
structure Computes (s : State) (c : Nat) (a : Alg) (o : BitVec 4) (x : Word) (d : Nat) : Prop where
  alg : algOfCode s.alg = some a
  digits : s.digitCount? = some d
  keyFits : s.keyTooLong = false
  truncates : truncate (hmac a s.secret (serializeCounter c)) = .ok (o, x)

theorem computeCode_eq_ok_iff {s t : State} {c : Nat} : computeCode s c = .ok t ↔
    ∃ a o x d, Computes s c a o x d ∧ t = commitStages s c (hmac a s.secret (serializeCounter c)) o x d := by
  constructor
  · intro h
    obtain ⟨-, he⟩ | ⟨a, ha, ⟨-, he⟩ | ⟨d, hd, ⟨-, he⟩ | ⟨hk, ⟨e, -, he⟩ | ⟨o, x, ht, he⟩⟩⟩⟩ :=
      computeCode_cases s c <;> cases he.symm.trans h
    exact ⟨a, o, x, d, ⟨ha, hd, hk, ht⟩, rfl⟩
  · rintro ⟨a, o, x, d, ⟨ha, hd, hk, ht⟩, rfl⟩
    simp [computeCode, ha, hd, hk, ht, commitStages]

section Checks

variable {s : State} (c : Nat)

theorem computeCode_of_unsupported (halg : 3 ≤ s.alg.toNat) : computeCode s c = .error .unsupportedAlg := by
  simp [computeCode, (algOfCode_eq_none s.alg).mpr halg]

theorem exists_alg_of_le (halg : s.alg.toNat ≤ 2) : ∃ a, algOfCode s.alg = some a :=
  Option.ne_none_iff_exists'.mp fun hnone => absurd ((algOfCode_eq_none s.alg).mp hnone) (by omega)

theorem computeCode_of_badDigits (halg : s.alg.toNat ≤ 2) (hdig : s.digits.toNat < 1 ∨ 10 < s.digits.toNat) :
    computeCode s c = .error .invalidDigits := by
  obtain ⟨a, ha⟩ := exists_alg_of_le halg
  simp [computeCode, ha, (digitCount_eq_none s).mpr hdig]

theorem computeCode_of_longKey (halg : s.alg.toNat ≤ 2) (hmin : 1 ≤ s.digits.toNat) (hmax : s.digits.toNat ≤ 10)
    (hlong : 128 < s.keyLen.toNat) : computeCode s c = .error .keyLength := by
  obtain ⟨a, ha⟩ := exists_alg_of_le halg
  simp [computeCode, ha, (digitCount_eq_some s _).mpr ⟨rfl, hmin, hmax⟩, (keyTooLong_eq_true s).mpr hlong]

/-- Past its checks the fused computation succeeds, since a digest is never too short to truncate (R203). -/
theorem exists_computes {a : Alg} (halg : AlgIs s a) (hmin : 1 ≤ s.digits.toNat) (hmax : s.digits.toNat ≤ 10)
    (hfit : s.keyLen.toNat ≤ 128) : ∃ o x, Computes s c a o x s.digits.toNat := by
  cases ht : truncate (hmac a s.secret (serializeCounter c)) with
  | error e => exact absurd ht (truncate_ne_error (le_hmac_length a _ _) e)
  | ok p => exact ⟨p.1, p.2, algOfCode_eq_some_iff_algIs.mpr halg, (digitCount_eq_some s _).mpr ⟨rfl, hmin, hmax⟩,
      (keyTooLong_eq_false s).mpr hfit, ht⟩

end Checks

/-! ### HOTP -/

theorem exec_hotp_of_invalid {s : State} (h : s.valid.ctrLo = false ∨ s.valid.ctrHi = false ∨ s.valid.key = false) :
    exec .hotp s = .next (s.fail .missingInput) := by
  have hv : (s.valid.counter && s.valid.key) = false := by
    rwa [Valid.counter, Bool.and_eq_false_iff, Bool.and_eq_false_iff, or_assoc]
  exact exec_of_error (by simp [runOf, runHotp, hv])

theorem runHotp_of_valid {s : State} (hlo : s.valid.ctrLo = true) (hhi : s.valid.ctrHi = true)
    (hkey : s.valid.key = true) : runOf .hotp s = computeCode s s.counter := by
  simp [runOf, runHotp, Valid.counter, hlo, hhi, hkey]

/-- Settles O21: the valid bits come first, then the fused computation decides, in its own order. -/
theorem hotpResult : Obligations.HotpResult := by
  intro s
  refine ⟨exec_hotp_of_invalid, fun hlo hhi hkey => ?_⟩
  have hrun := runHotp_of_valid hlo hhi hkey
  refine ⟨fun halg => ?_, fun halg hdig => ?_, fun halg hmin hmax hlong => ?_, fun a halg hmin hmax hfit => ?_⟩
  · exact exec_of_error (hrun.trans (computeCode_of_unsupported _ halg))
  · exact exec_of_error (hrun.trans (computeCode_of_badDigits _ halg hdig))
  · exact exec_of_error (hrun.trans (computeCode_of_longKey _ halg hmin hmax hlong))
  · obtain ⟨o, x, hc⟩ := exists_computes s.counter halg hmin hmax hfit
    refine ⟨o, x, hc.truncates, ?_⟩
    rw [exec_of_ok (hrun.trans (computeCode_eq_ok_iff.mpr ⟨a, o, x, _, hc, rfl⟩)),
      commitStages_eq_withCode hlo hhi]
    rfl

/-! ### TOTP -/

theorem exec_totp_of_invalid {s : State} (h : s.valid.timeLo = false ∨ s.valid.timeHi = false ∨ s.valid.key = false) :
    exec .totp s = .next (s.fail .missingInput) := by
  have hv : (s.valid.time && s.valid.key) = false := by
    rwa [Valid.time, Bool.and_eq_false_iff, Bool.and_eq_false_iff, or_assoc]
  exact exec_of_error (by simp [runOf, runTotp, hv])

section ValidInputs

variable {s : State} (hlo : s.valid.timeLo = true) (hhi : s.valid.timeHi = true) (hkey : s.valid.key = true)
include hlo hhi hkey

theorem exec_totp_of_timeStep_error {e : ErrCode} (h : timeStep s.time s.t0 s.periodSeconds = .error e) :
    exec .totp s = .next (s.fail e) :=
  exec_of_error (by simp [runOf, runTotp, valid_time hlo hhi, hkey, h])

/-- Past its time step TOTP is the fused computation for the derived counter, which it commits too. -/
theorem runTotp_of_timeStep_ok {c : Nat} (h : timeStep s.time s.t0 s.periodSeconds = .ok c) :
    runOf .totp s = (computeCode s c).map (·.commitCounter c) := by
  simp only [runOf, runTotp, valid_time hlo hhi, hkey, h]
  cases computeCode s c <;> rfl

end ValidInputs

/-- The counter and the results are separate registers, so the order of their commits is free. -/
theorem commitStages_commitCounter (s : State) (c : Nat) (h : List Byte) (o : BitVec 4) (x : Word) (d q : Nat) :
    (commitStages s c h o x d).commitCounter q = commitStages (s.commitCounter q) c h o x d := rfl

/-- Settles O22: the time step comes after the valid bits and before the fused computation for its counter. -/
theorem totpResult : Obligations.TotpResult := by
  intro s
  refine ⟨exec_totp_of_invalid, fun hlo hhi hkey => ⟨fun hx => ?_, fun hx hlt => ?_, fun hx hle => ?_⟩⟩
  · exact exec_totp_of_timeStep_error hlo hhi hkey (timeStep_of_nonpos_period hx)
  · exact exec_totp_of_timeStep_error hlo hhi hkey (timeStep_of_time_lt hx hlt)
  have hrun := runTotp_of_timeStep_ok hlo hhi hkey (timeStep_of_le_time hx hle)
  refine ⟨fun halg => ?_, fun halg hdig => ?_, fun halg hmin hmax hlong => ?_, fun a halg hmin hmax hfit => ?_⟩
  · exact exec_of_error (by rw [hrun, computeCode_of_unsupported _ halg]; rfl)
  · exact exec_of_error (by rw [hrun, computeCode_of_badDigits _ halg hdig]; rfl)
  · exact exec_of_error (by rw [hrun, computeCode_of_longKey _ halg hmin hmax hlong]; rfl)
  · obtain ⟨o, x, hc⟩ := exists_computes ((s.time - s.t0) / s.periodSeconds).toNat halg hmin hmax hfit
    rw [computeCode_eq_ok_iff.mpr ⟨a, o, x, _, hc, rfl⟩, Except.map, commitStages_commitCounter] at hrun
    refine ⟨_, o, x, isFloor_toNat_ediv (by omega) hx, hc.truncates, ?_⟩
    rw [exec_of_ok hrun, commitStages_eq_withCode rfl rfl, commitCounter_eq_withCounter]
    rfl

/-! ### CLEAR -/

/-- A command whose valid bits are all 0 fails with MISSING_INPUT. -/
theorem exec_of_valid_none {s : State} (h : s.valid = Valid.none) {i : Instr} (hnop : i ≠ .nop)
    (hclear : i ≠ .clear) : exec i s = .next (s.fail .missingInput) := by
  cases i with
  | nop | clear => contradiction
  | ser => exact exec_ser_of_invalid (.inl (by rw [h]; rfl))
  | tstep => exact exec_tstep_of_invalid (.inl (by rw [h]; rfl))
  | hmac => exact exec_hmac_of_invalid (.inl (by rw [h]; rfl))
  | trunc => exact exec_trunc_of_invalid (by rw [h]; rfl)
  | reduce => exact exec_reduce_of_invalid (by rw [h]; rfl)
  | hotp => exact exec_hotp_of_invalid (.inl (by rw [h]; rfl))
  | totp => exact exec_totp_of_invalid (.inl (by rw [h]; rfl))

/-- Settles O20: CLEAR commits the zeroized state, in which no valid bit is set. -/
theorem clearResult : Obligations.ClearResult := by
  intro s
  exact ⟨s.zeroize.succeed, exec_of_ok (i := .clear) (s := s) rfl, rfl, fun _ => exec_of_valid_none rfl⟩

/-! ### The stages one after another -/

/-- HS and HSLEN as a commit leaves them give the committed hash back (41_hmac.md R190). -/
theorem hash_of_committed {s : State} {h : List Byte} (hhs : s.hs = bufferOf 64 h)
    (hlen : s.hsLen = BitVec.ofNat 8 h.length) (hle : h.length ≤ 64) : s.hash = h := by
  have hlen' : s.hsLen.toNat = h.length := by
    rw [hlen, BitVec.toNat_ofNat]
    omega
  rw [State.hash, hhs, hlen', bufferOf_take 64 h hle]

theorem hmac_length_le (a : Alg) (k m : List Byte) : (hmac a k m).length ≤ 64 := by
  rw [hmac_length]
  cases a <;> decide

section Issued

variable {s : State}

theorem issued_ser (hlo : s.valid.ctrLo = true) (hhi : s.valid.ctrHi = true) : issued .ser s =
    .next ((accepted s (encode .ser)).commitCbuf (serializeCounter s.counter)).succeed :=
  exec_ser_of_valid (s := accepted s (encode .ser)) hlo hhi

theorem issued_tstep {c : Nat} (hlo : s.valid.timeLo = true) (hhi : s.valid.timeHi = true)
    (h : timeStep s.time s.t0 s.periodSeconds = .ok c) :
    issued .tstep s = .next ((accepted s (encode .tstep)).commitCounter c).succeed :=
  exec_tstep_of_ok (s := accepted s (encode .tstep)) hlo hhi h

theorem issued_hmac {a : Alg} {m : List Byte} (hcbuf : s.valid.cbuf = true) (hkey : s.valid.key = true)
    (halg : algOfCode s.alg = some a) (hfit : s.keyTooLong = false) (hm : s.cbuf.toList = m) :
    issued .hmac s = .next ((accepted s (encode .hmac)).commitHs (hmac a s.secret m)).succeed := by
  subst hm
  exact exec_hmac_of_ok (s := accepted s (encode .hmac)) hcbuf hkey halg hfit

theorem issued_trunc {h : List Byte} {o : BitVec 4} {x : Word} (hv : s.valid.hs = true) (hh : s.hash = h)
    (ht : truncate h = .ok (o, x)) :
    issued .trunc s = .next ((accepted s (encode .trunc)).commitOtp o x).succeed := by
  subst hh
  exact exec_trunc_of_ok (s := accepted s (encode .trunc)) hv ht

theorem issued_reduce {d : Nat} (hv : s.valid.otp = true) (hd : s.digitCount? = some d) :
    issued .reduce s = .next ((accepted s (encode .reduce)).commitReduced s.otp31.toNat d).succeed :=
  exec_reduce_of_ok (s := accepted s (encode .reduce)) hv hd

/-- What the four stages leave: each finds the valid bit and the value that the stage before committed, and they pass
the checks of the fused computation (43_fused_control.md R240). -/
theorem issued_stages {a : Alg} {o : BitVec 4} {x : Word} {d : Nat} (hlo : s.valid.ctrLo = true)
    (hhi : s.valid.ctrHi = true) (hkey : s.valid.key = true) (hc : Computes s s.counter a o x d) :
    ∃ s1 s2 s3 s4, issued .ser s = .next s1 ∧ s1.status.errCode = 0 ∧
      issued .hmac s1 = .next s2 ∧ s2.status.errCode = 0 ∧
      issued .trunc s2 = .next s3 ∧ s3.status.errCode = 0 ∧
      issued .reduce s3 = .next s4 ∧ s4.status.errCode = 0 ∧
      s4 = (commitStages (accepted s (encode .reduce)) s.counter (hmac a s.secret (serializeCounter s.counter))
        o x d).succeed := by
  obtain ⟨halg, hd, hk, ht⟩ := hc
  have hcbuf : (bufferOf 8 (serializeCounter s.counter)).toList = serializeCounter s.counter :=
    bufferOf_toList 8 _ (beBytes_length 8 s.counter)
  exact ⟨_, _, _, _, issued_ser hlo hhi, rfl, issued_hmac rfl hkey halg hk hcbuf, rfl,
    issued_trunc rfl (hash_of_committed rfl rfl (hmac_length_le a _ _)) ht, rfl, issued_reduce rfl hd, rfl, rfl⟩

end Issued

/-- Settles O24: HOTP's success gives what the stages need, and both commit the same from the state they start at. -/
theorem stepwiseEqualsHotp : Obligations.StepwiseEqualsHotp := by
  intro s t ht h0
  obtain ⟨u, hu, rfl⟩ := exec_success ht h0
  obtain ⟨-, he⟩ | ⟨hv, he⟩ := runHotp_cases (accepted s (encode .hotp))
  · cases he.symm.trans hu
  obtain ⟨a, o, x, d, ⟨halg, hd, hk, htr⟩, rfl⟩ := computeCode_eq_ok_iff.mp (he.symm.trans hu)
  obtain ⟨hctr, hkey⟩ := Bool.and_eq_true_iff.mp hv
  obtain ⟨hlo, hhi⟩ := Bool.and_eq_true_iff.mp hctr
  exact issued_stages (s := s) hlo hhi hkey ⟨halg, hd, hk, htr⟩

/-- A committed counter reads back (40_counter.md R126). -/
theorem counter_commitCounter (s : State) {c : Nat} (hc : c < 2 ^ 64) : (s.commitCounter c).counter = c := by
  rw [State.counter, State.commitCounter_ctrHi, State.commitCounter_ctrLo, BitVec.toNat_append,
    ← Nat.shiftLeft_add_eq_or_of_lt (BitVec.isLt _), BitVec.toNat_ofNat, BitVec.toNat_ofNat, Nat.shiftLeft_eq,
    Nat.shiftRight_eq_div_pow]
  omega

/-- The counter of a successful time step fits COUNTER (40_counter.md R129). -/
theorem timeStep_ok_lt {s : State} {c : Nat} (h : timeStep s.time s.t0 s.periodSeconds = .ok c) : c < 2 ^ 64 := by
  obtain ⟨hx, -⟩ := (timeStep_ok_iff _ _ _ _).mp h
  by_cases hle : s.t0 ≤ s.time
  · cases (timeStep_of_le_time hx hle).symm.trans h
    exact toNat_timeStep_lt s hle
  · cases (timeStep_of_time_lt hx (by omega)).symm.trans h

/-- Settles O25: TSTEP commits TOTP's counter, from which the stages do what TOTP does. -/
theorem stepwiseEqualsTotp : Obligations.StepwiseEqualsTotp := by
  intro s t ht h0
  obtain ⟨u, hu, rfl⟩ := exec_success ht h0
  obtain ⟨-, he⟩ | ⟨hv, ⟨e, -, he⟩ | ⟨c, hstep, ⟨e, -, he⟩ | ⟨v, hcode, he⟩⟩⟩ :=
    runTotp_cases (accepted s (encode .totp)) <;> cases he.symm.trans hu
  obtain ⟨a, o, x, d, ⟨halg, hd, hk, htr⟩, rfl⟩ := computeCode_eq_ok_iff.mp hcode
  obtain ⟨htime, hkey⟩ := Bool.and_eq_true_iff.mp hv
  obtain ⟨hlo, hhi⟩ := Bool.and_eq_true_iff.mp htime
  have hctr : ((accepted s (encode .tstep)).commitCounter c).succeed.counter = c :=
    counter_commitCounter (accepted s (encode .tstep)) (timeStep_ok_lt (s := s) hstep)
  obtain ⟨s1, s2, s3, s4, hstages⟩ := issued_stages (s := ((accepted s (encode .tstep)).commitCounter c).succeed)
    rfl rfl hkey ⟨halg, hd, hk, by rwa [hctr]⟩
  rw [hctr] at hstages
  exact ⟨_, s1, s2, s3, s4, issued_tstep (s := s) hlo hhi hstep, rfl, hstages⟩

end Sys2Proof.Proofs
end

section
/-! SUPPORT. Completions and their errors (60_exceptions.md R262 to R269): what every completion leaves, the
acknowledgement, and that the checks of each command stand in the order of their codes. -/

open Sys2Proof Sys2Proof.Machine Sys2Proof.Claims

namespace Sys2Proof.Proofs

/-! ### The completion of a command -/

/-- A failing completion, field by field (60_exceptions.md R266). -/
theorem fail_eq_failed (s : State) (e : ErrCode) : s.fail e = failed s e.code := by cases e <;> rfl

/-- Settles O9: a completion is a commit, which keeps STATUS, with code 0 recorded, or the old state with an error
recorded. -/
theorem commandsCompletePrecisely : Obligations.CommandsCompletePrecisely := by
  intro i s
  rw [exec_eq_finish]
  obtain ⟨u, hu, hf⟩ | ⟨e, -, hf⟩ := finish_cases s (runOf i s)
  · have hst : u.status = s.status := (runOf_commits hu).status
    exact ⟨u.succeed, hf, rfl, rfl, rfl, congrArg (·.ovr) hst, congrArg (·.lastOp) hst, fun h => absurd rfl h⟩
  · exact ⟨s.fail e, hf, rfl, rfl, rfl, rfl, rfl, fun _ => fail_eq_failed s e⟩

/-! ### The acknowledgement -/

/-- The write of bit 1 alone is the acknowledgement (60_exceptions.md R269). -/
theorem writeReg_status_ack (s : State) : writeReg s .status 0x00000002 = s.acknowledge := rfl

theorem irq_of_done_false {s : State} (h : s.status.done = false) : s.irq = false := by
  rw [State.irq, h, Bool.and_false]

/-- Settles O49: the write is the acknowledgement, and with DONE the interrupt line falls. -/
theorem acknowledgementClearsTheOutcome : Obligations.AcknowledgementClearsTheOutcome :=
  fun s => ⟨writeReg_status_ack s, irq_of_done_false rfl⟩

/-! ### The smallest code of several conditions -/

/-- `r` succeeds when no condition of `P` holds, and otherwise fails with the smallest code whose condition holds
(60_exceptions.md R263). -/
def ReportsSmallest {α : Type} (P : ErrCode → Prop) (r : Except ErrCode α) : Prop :=
  match r with
  | .ok _ => ∀ e, ¬ P e
  | .error e => P e ∧ ∀ e', P e' → e.code.toNat ≤ e'.code.toNat

namespace ReportsSmallest

variable {α β : Type} {P Q : ErrCode → Prop}

theorem congr {r : Except ErrCode α} (h : ReportsSmallest P r) (hPQ : ∀ e, Q e ↔ P e) : ReportsSmallest Q r := by
  rwa [funext fun e => propext (hPQ e)]

theorem map {r : Except ErrCode α} (h : ReportsSmallest P r) (f : α → β) : ReportsSmallest P (r.map f) := by
  cases r <;> exact h

/-- One check and nothing behind it that can fail. -/
theorem lastCheck {r : Except ErrCode α} {e : ErrCode} {c : Prop} (hfail : c → r = .error e)
    (hpass : ¬ c → ∃ t, r = .ok t) : ReportsSmallest (fun e' => e' = e ∧ c) r := by
  by_cases h : c
  · rw [hfail h]
    exact ⟨⟨rfl, h⟩, fun e' ⟨he', _⟩ => he' ▸ le_rfl⟩
  · obtain ⟨t, rfl⟩ := hpass h
    exact fun e' ⟨_, hc⟩ => h hc

/-- Two groups of checks one after the other, the first with the smaller codes. -/
theorem bind {x : Except ErrCode α} {f : α → Except ErrCode β} (hx : ReportsSmallest P x)
    (hf : ∀ a, ReportsSmallest Q (f a)) (hle : ∀ e e', P e → Q e' → e.code.toNat ≤ e'.code.toNat) :
    ReportsSmallest (fun e => P e ∨ Q e) (x >>= f) := by
  cases x with
  | error e =>
    obtain ⟨he, hmin⟩ := hx
    exact ⟨.inl he, fun e' h => h.elim (hmin e') (hle e e' he)⟩
  | ok a => exact (hf a).congr fun e => or_iff_right (hx e)

/-- A check before others with larger codes. -/
theorem check {r : Except ErrCode α} {e : ErrCode} {c : Prop} (hfail : c → r = .error e)
    (hpass : ¬ c → ReportsSmallest Q r) (hle : ∀ e', Q e' → e.code.toNat ≤ e'.code.toNat) :
    ReportsSmallest (fun e' => e' = e ∧ c ∨ Q e') r := by
  by_cases h : c
  · rw [hfail h]
    refine ⟨.inl ⟨rfl, h⟩, fun e' he' => ?_⟩
    obtain ⟨rfl, -⟩ | hQ := he'
    · exact le_rfl
    · exact hle e' hQ
  · exact (hpass h).congr fun e' => or_iff_right fun ⟨_, hc⟩ => h hc

end ReportsSmallest

/-! ### The checks of the units -/

/-- The conditions of the time step (60_exceptions.md R262). -/
def TimeStepCause (s : State) (e : ErrCode) : Prop :=
  e = .invalidPeriod ∧ s.periodSeconds ≤ 0 ∨ e = .counterRange ∧ s.time < s.t0

/-- The conditions of the fused computation, whatever its counter is (R262). -/
def ComputeCause (s : State) (e : ErrCode) : Prop :=
  e = .unsupportedAlg ∧ 3 ≤ s.alg.toNat ∨
  e = .invalidDigits ∧ (s.digits.toNat < 1 ∨ 10 < s.digits.toNat) ∨ e = .keyLength ∧ 128 < s.keyLen.toNat

theorem TimeStepCause.code_le {s : State} {e e' : ErrCode} (h : TimeStepCause s e) (h' : ComputeCause s e') :
    e.code.toNat ≤ e'.code.toNat := by
  obtain ⟨rfl, -⟩ | ⟨rfl, -⟩ := h <;> obtain ⟨rfl, -⟩ | ⟨rfl, -⟩ | ⟨rfl, -⟩ := h' <;> decide

theorem timeStep_reportsSmallest (s : State) :
    ReportsSmallest (TimeStepCause s) (timeStep s.time s.t0 s.periodSeconds) := by
  refine .check timeStep_of_nonpos_period (fun hx => .lastCheck ?_ ?_) ?_
  · exact timeStep_of_time_lt (not_le.mp hx)
  · exact fun hle => ⟨_, timeStep_of_le_time (not_le.mp hx) (not_lt.mp hle)⟩
  · rintro e' ⟨rfl, -⟩
    decide

theorem computeCode_reportsSmallest (s : State) (c : Nat) : ReportsSmallest (ComputeCause s) (computeCode s c) := by
  refine .check (computeCode_of_unsupported c) (fun halg => .check ?_ (fun hdig => .lastCheck ?_ fun hfit => ?_) ?_) ?_
  · exact computeCode_of_badDigits c (by omega)
  · exact computeCode_of_longKey c (by omega) (by omega) (by omega)
  · obtain ⟨a, ha⟩ := exists_alg_of_le (show s.alg.toNat ≤ 2 by omega)
    obtain ⟨o, x, hc⟩ := exists_computes c (algOfCode_eq_some_iff_algIs.mp ha) (show 1 ≤ s.digits.toNat by omega)
      (by omega) (by omega)
    exact ⟨_, computeCode_eq_ok_iff.mpr ⟨a, o, x, _, hc, rfl⟩⟩
  · rintro e' ⟨rfl, -⟩
    decide
  · rintro e' (⟨rfl, -⟩ | ⟨rfl, -⟩) <;> decide

/-! ### The checks of the commands -/

/-- Every command checks its valid bits first. -/
theorem runOf_of_missing {i : Instr} {s : State} (h : needs i s.valid = false) : runOf i s = .error .missingInput := by
  cases i with
  | nop | clear => cases h
  | ser | tstep | hmac | trunc | reduce | hotp | totp => exact if_pos (congrArg (!·) h)

/-- The conditions a command checks behind its valid bits (60_exceptions.md R262). -/
def LaterCause (i : Instr) (s : State) (e : ErrCode) : Prop := e ≠ .missingInput ∧ Cause i s e

theorem cause_iff {i : Instr} {s : State} {e : ErrCode} :
    Cause i s e ↔ e = .missingInput ∧ needs i s.valid = false ∨ LaterCause i s e := by
  by_cases he : e = .missingInput
  · subst he
    simp [LaterCause, Cause]
  · simp [LaterCause, he]

theorem missingInput_le_of_laterCause {i : Instr} {s : State} (e : ErrCode) (h : LaterCause i s e) :
    ErrCode.missingInput.code.toNat ≤ e.code.toNat := by
  cases e with
  | illegalCmd => exact h.2.elim
  | missingInput | invalidPeriod | counterRange | unsupportedAlg | invalidDigits | keyLength | truncRange => decide

section LaterCauses

variable {s : State} (e : ErrCode)

theorem laterCause_tstep : LaterCause .tstep s e ↔ TimeStepCause s e := by
  cases e <;> simp [LaterCause, Cause, TimeStepCause, State.periodSeconds]

theorem laterCause_hmac : LaterCause .hmac s e ↔
    e = .unsupportedAlg ∧ 3 ≤ s.alg.toNat ∨ e = .keyLength ∧ 128 < s.keyLen.toNat := by
  cases e <;> simp [LaterCause, Cause]

theorem laterCause_trunc : LaterCause .trunc s e ↔
    e = .truncRange ∧ s.hash.length < (truncOffset s.hash).toNat + 4 := by
  cases e <;> simp [LaterCause, Cause]

theorem laterCause_reduce : LaterCause .reduce s e ↔
    e = .invalidDigits ∧ (s.digits.toNat < 1 ∨ 10 < s.digits.toNat) := by
  cases e <;> simp [LaterCause, Cause]

/-- No digest of a fused command is too short to truncate (42_truncate_reduce.md R203). -/
theorem truncOffset_freshHash_fits (i : Instr) (a : Alg) :
    (truncOffset (freshHash i s a)).toNat + 4 ≤ (freshHash i s a).length := by
  have hlen : 19 ≤ (freshHash i s a).length := le_hmac_length a _ _
  have hoff := truncOffset_lt (freshHash i s a)
  omega

theorem laterCause_hotp : LaterCause .hotp s e ↔ ComputeCause s e := by
  cases e <;> simp [LaterCause, Cause, ComputeCause, truncOffset_freshHash_fits]

theorem laterCause_totp : LaterCause .totp s e ↔ TimeStepCause s e ∨ ComputeCause s e := by
  cases e <;> simp [LaterCause, Cause, TimeStepCause, ComputeCause, State.periodSeconds, truncOffset_freshHash_fits]

end LaterCauses

/-! ### The commands behind their valid bits -/

section ValidInputs

variable {s : State}

theorem runOf_tstep_of_valid (hv : needs .tstep s.valid = true) :
    runOf .tstep s = (timeStep s.time s.t0 s.periodSeconds).map s.commitCounter := by
  have htime : s.valid.time = true := hv
  simp only [runOf, runTstep, htime]
  cases timeStep s.time s.t0 s.periodSeconds <;> rfl

theorem runOf_totp_of_valid (hv : needs .totp s.valid = true) : runOf .totp s =
    timeStep s.time s.t0 s.periodSeconds >>= fun c => (computeCode s c).map (·.commitCounter c) := by
  have hinputs : (s.valid.time && s.valid.key) = true := hv
  simp only [runOf, runTotp, hinputs]
  cases timeStep s.time s.t0 s.periodSeconds with
  | error e => rfl
  | ok c => cases hc : computeCode s c <;> simp [hc, bind, Except.bind, Except.map]

theorem runOf_hotp_of_valid (hv : needs .hotp s.valid = true) : runOf .hotp s = computeCode s s.counter := by
  have hinputs : (s.valid.counter && s.valid.key) = true := hv
  simp [runOf, runHotp, hinputs]

theorem hmac_reportsSmallest (hv : needs .hmac s.valid = true) :
    ReportsSmallest (LaterCause .hmac s) (runOf .hmac s) := by
  have hinputs : (s.valid.cbuf && s.valid.key) = true := hv
  refine .congr (.check (fun halg => ?_) (fun halg => ?_) ?_) laterCause_hmac
  · simp [runOf, runHmac, hinputs, (algOfCode_eq_none s.alg).mpr halg]
  · obtain ⟨a, ha⟩ := exists_alg_of_le (show s.alg.toNat ≤ 2 by omega)
    refine .lastCheck (fun hlong => ?_) fun hfit => ?_
    · simp [runOf, runHmac, hinputs, ha, (keyTooLong_eq_true s).mpr hlong]
    · simp [runOf, runHmac, hinputs, ha, (keyTooLong_eq_false s).mpr (not_lt.mp hfit)]
  · rintro e' ⟨rfl, -⟩
    decide

theorem trunc_reportsSmallest (hv : needs .trunc s.valid = true) :
    ReportsSmallest (LaterCause .trunc s) (runOf .trunc s) := by
  have hhs : s.valid.hs = true := hv
  refine .congr (.lastCheck (fun hshort => ?_) fun hfit => ?_) laterCause_trunc
  · simp [runOf, runTrunc, hhs, (truncate_error_iff s.hash _).mpr ⟨hshort, rfl⟩]
  · simp [runOf, runTrunc, hhs, (truncate_ok_iff s.hash _ _).mpr ⟨not_lt.mp hfit, rfl, rfl⟩]

theorem reduce_reportsSmallest (hv : needs .reduce s.valid = true) :
    ReportsSmallest (LaterCause .reduce s) (runOf .reduce s) := by
  have hotp : s.valid.otp = true := hv
  refine .congr (.lastCheck (fun hbad => ?_) fun hgood => ?_) laterCause_reduce
  · simp [runOf, runReduce, hotp, (digitCount_eq_none s).mpr hbad]
  · simp [runOf, runReduce, hotp, (digitCount_eq_some s _).mpr ⟨rfl, by omega, by omega⟩]

end ValidInputs

/-- NOP, SER and CLEAR check nothing behind their valid bits. -/
theorem not_laterCause_of_unchecked {i : Instr} {s : State} (hi : i = .nop ∨ i = .ser ∨ i = .clear) (e : ErrCode) :
    ¬ LaterCause i s e := by
  obtain rfl | rfl | rfl := hi <;> cases e <;> simp [LaterCause, Cause, needs]

theorem runOf_reportsSmallest_of_valid {i : Instr} {s : State} (hv : needs i s.valid = true) :
    ReportsSmallest (LaterCause i s) (runOf i s) := by
  cases i with
  | nop => exact not_laterCause_of_unchecked (.inl rfl)
  | clear => exact not_laterCause_of_unchecked (.inr (.inr rfl))
  | ser =>
    have hctr : s.valid.counter = true := hv
    simp only [runOf, runSer, hctr]
    exact not_laterCause_of_unchecked (.inr (.inl rfl))
  | tstep =>
    rw [runOf_tstep_of_valid hv]
    exact ((timeStep_reportsSmallest s).map _).congr laterCause_tstep
  | hmac => exact hmac_reportsSmallest hv
  | trunc => exact trunc_reportsSmallest hv
  | reduce => exact reduce_reportsSmallest hv
  | hotp =>
    rw [runOf_hotp_of_valid hv]
    exact (computeCode_reportsSmallest s _).congr laterCause_hotp
  | totp =>
    rw [runOf_totp_of_valid hv]
    exact .congr (.bind (timeStep_reportsSmallest s) (fun c => (computeCode_reportsSmallest s c).map _)
      fun _ _ => TimeStepCause.code_le) laterCause_totp

/-- Every command reports the smallest code whose condition holds (60_exceptions.md R263). -/
theorem runOf_reportsSmallest (i : Instr) (s : State) : ReportsSmallest (Cause i s) (runOf i s) :=
  .congr (.check runOf_of_missing (fun hv => runOf_reportsSmallest_of_valid (Bool.of_not_eq_false hv))
    missingInput_le_of_laterCause) fun _ => cause_iff

/-- Settles O27: an operation's answer is the smallest code whose condition holds, and a completion records it. -/
theorem smallestErrorCodeWins : Obligations.SmallestErrorCodeWins := by
  refine ⟨fun s => completePending_of_illegalWord, fun i s => ?_⟩
  have hreport := runOf_reportsSmallest i s
  rw [exec_eq_finish]
  obtain ⟨u, hu, hf⟩ | ⟨e, he, hf⟩ := finish_cases s (runOf i s)
  · rw [hu] at hreport
    exact ⟨u.succeed, hf, .inl ⟨rfl, hreport⟩⟩
  · rw [he] at hreport
    obtain ⟨hcause, hmin⟩ := hreport
    exact ⟨s.fail e, hf, .inr ⟨e, hcause, hmin, fail_eq_failed s e⟩⟩

end Sys2Proof.Proofs
end

section
/-! SUPPORT. Reset and hazards (70_reset_and_hazards.md R300 to R320): an idle engine's turn, writes while a command
runs, the reset input, and what can clear OVR. -/

open Sys2Proof Sys2Proof.Machine Sys2Proof.Claims

namespace Sys2Proof.Proofs

/-! ### An idle block -/

theorem engineTurn_of_idle {s : State} (hr : s.rst = false) (hidle : s.status.busy = false) :
    engineTurn s = .next s := by
  simp [engineTurn, hr, hidle]

/-- Settles O11: the turn comes from the list or once it is used up, and leaves the state it was delivered at. -/
theorem idleEngineChangesNothing : Obligations.IdleEngineChangesNothing := by
  intro s rest hr hidle
  refine ⟨fun hin => ?_, fun hin => ?_⟩
  · exact (step_nil hin).trans (engineTurn_of_idle hr hidle)
  · exact (step_cons hin).trans (engineTurn_of_idle (s := s.setInputs rest) hr hidle)

/-! ### Writes while a command runs -/

/-- Settles O39: a blocked and a read-only write have their own lemmas, and a STATUS write touches BUSY by no bit. -/
theorem busyBlocksInputWrites : Obligations.BusyBlocksInputWrites := by
  intro s r v hbusy
  refine ⟨fun hr => writeReg_of_blocked hbusy hr v, fun hr => writeReg_of_readOnly s hr v, rfl, ?_, fun hv => ?_⟩
  · simp [writeReg_status, Status.written_eq, hbusy]
  · simp [writeReg_status, Status.written_eq, hv]

/-! ### The reset input -/

theorem driveReset_in_reset {s : State} (hr : s.rst = true) (level : Bool) :
    driveReset s level = s.resetTo level :=
  if_pos (by simp [hr])

theorem engineTurn_in_reset {s : State} (hr : s.rst = true) : engineTurn s = .next (s.resetTo true) := if_pos hr

/-- Settles O51: each of the three events is a reset at the level it leaves `rst` at, with PENDING and the recorded
answer at the model's own reset values (assumption log 5 and 10). -/
theorem resetEvent : Obligations.ResetEvent := by
  intro s rest
  refine ⟨fun hin => ⟨0, none, ?_⟩, fun hr hin => ⟨0, none, ?_⟩, fun hr hin => ⟨0, none, ?_⟩⟩ <;>
    refine (step_cons hin).trans ?_
  · rfl
  · exact congrArg Host.Outcome.next (driveReset_in_reset (s := s.setInputs rest) hr false)
  · exact engineTurn_in_reset (s := s.setInputs rest) hr

/-- An access that would reach the window is stopped by a held reset (70_reset_and_hazards.md R301). -/
theorem reachWindow_in_reset {s : State} {a : Access} {off : Nat} (hr : s.rst = true)
    (hoff : a.busAddr.windowOffset = some off) : reachWindow s a = .error (.accessDuringReset off) := by
  simp [reachWindow, hoff, hr]

/-- Settles O52: both kinds of host step stop where the access would reach the window. -/
theorem accessDuringResetIsStuck : Obligations.AccessDuringResetIsStuck := by
  intro s a off hr hoff
  have hreach := reachWindow_in_reset hr hoff
  exact ⟨by rw [deliver, hostAccess, hreach], by rw [deliver, hostProbe, hreach]⟩

/-! ### What clears OVR -/

theorem writeInput_ovr (s : State) (r : Reg) (v : Word) : (writeInput s r v).status.ovr = s.status.ovr := by
  cases r <;> rfl

/-- A write of a mapped word that clears OVR is of STATUS, with bit 3 set (10_state.md R23). -/
theorem writeReg_clears_ovr {s : State} {r : Reg} {v : Word} (hset : s.status.ovr = true)
    (hclear : (writeReg s r v).status.ovr = false) : r = .status ∧ v.getLsbD 3 = true := by
  obtain ⟨-, he⟩ | ⟨-, he⟩ | ⟨rfl, he⟩ | ⟨-, -, -, -, he⟩ | ⟨-, -, -, -, he⟩ := writeReg_cases s r v <;>
    rw [he] at hclear
  · simp [hset] at hclear
  · simp [hset] at hclear
  · exact ⟨rfl, by simpa [Status.written_eq, hset] using hclear⟩
  · simp at hclear
  · simp [writeInput_ovr, hset] at hclear

/-- An access that clears OVR is a 32-bit write to offset 0x008 with bit 3 set. -/
theorem busAccess_clears_ovr {s : State} {a : Access} {off : Nat} (hset : s.status.ovr = true)
    (hclear : (busAccess s a off).2.status.ovr = false) :
    off = 0x008 ∧ ∃ addr v, a = .write .w32 addr v ∧ v.getLsbD 3 = true := by
  cases a with
  | read w addr => simp [busAccess, hset] at hclear
  | write w addr v =>
    cases hsel : selectReg w off with
    | error why => simp [busAccess, busWrite, hsel, hset] at hclear
    | ok r =>
      obtain ⟨rfl, haligned, hreg⟩ := (selectReg_ok_iff w off r).mp hsel
      simp only [busAccess, busWrite, hsel] at hclear
      obtain ⟨rfl, hv⟩ := writeReg_clears_ovr hset hclear
      exact ⟨byteOffset_of_regAt haligned hreg, addr, v, rfl, hv⟩

theorem hostStep_clears_ovr {s t : State} {a : Access} (h : hostAccess s a = .next t ∨ hostProbe s a = .next t)
    (hset : s.status.ovr = true) (hclear : t.status.ovr = false) :
    ∃ addr v, a = .write .w32 addr v ∧ addr.windowOffset = some 0x008 ∧ v.getLsbD 3 = true := by
  obtain ⟨off, hoff, rfl⟩ : ∃ off, a.busAddr.windowOffset = some off ∧
      t = (busAccess s a off).2.setReply (busAccess s a off).1 := by
    obtain h | h := h
    · obtain ⟨off, hoff, -, -, ht⟩ := hostAccess_next h
      exact ⟨off, hoff, ht⟩
    · obtain ⟨off, hoff, -, ht⟩ := hostProbe_next h
      exact ⟨off, hoff, ht⟩
  obtain ⟨rfl, addr, v, rfl, hv⟩ := busAccess_clears_ovr hset hclear
  exact ⟨addr, v, rfl, hoff, hv⟩

/-- A completion keeps OVR, whatever the command and its outcome (43_fused_control.md R232). -/
theorem completePending_ovr {s t : State} (h : completePending s = .next t) : t.status.ovr = s.status.ovr := by
  obtain rfl | ⟨i, -, hx⟩ := completePending_next h
  · rfl
  · obtain ⟨e, rfl⟩ | ⟨u, hc, rfl⟩ := exec_next hx
    · rfl
    · simp [hc.status]

theorem engineTurn_ovr {s t : State} (h : engineTurn s = .next t) : s.rst = true ∨ t.status.ovr = s.status.ovr := by
  obtain ⟨hr, -⟩ | ⟨-, -, he⟩ | ⟨-, -, he⟩ := engineTurn_cases s
  · exact .inl hr
  · exact .inr (completePending_ovr (he.symm.trans h))
  · cases he.symm.trans h
    exact .inr rfl

/-- An engine's turn clears OVR in a held reset only. -/
theorem rst_of_engineTurn_clears_ovr {s t : State} (h : engineTurn s = .next t) (hset : s.status.ovr = true)
    (hclear : t.status.ovr = false) : s.rst = true :=
  (engineTurn_ovr h).resolve_right (by simp [hset, hclear])

theorem driveReset_ovr (s : State) (level : Bool) :
    s.rst = true ∨ (driveReset s level).rst = true ∨ (driveReset s level).status.ovr = s.status.ovr := by
  cases level with
  | true => exact .inr (.inl rfl)
  | false =>
    cases hr : s.rst with
    | true => exact .inl rfl
    | false => simp [driveReset, hr]

/-- Settles O41: each kind of event that clears OVR is the STATUS write or a reset. -/
theorem overrunStaysUntilCleared : Obligations.OverrunStaysUntilCleared := by
  intro s t ht hset hclear
  cases hin : s.inputs with
  | nil => exact .inl (rst_of_engineTurn_clears_ovr ((step_nil hin).symm.trans ht) hset hclear)
  | cons e rest =>
    have hd : deliver (s.setInputs rest) e = .next t := (step_cons hin).symm.trans ht
    cases e with
    | access a =>
      obtain ⟨addr, v, rfl, hoff, hv⟩ := hostStep_clears_ovr (s := s.setInputs rest) (.inl hd) hset hclear
      exact .inr (.inr ⟨addr, v, rest, hoff, hv, .inl rfl⟩)
    | probe a =>
      obtain ⟨addr, v, rfl, hoff, hv⟩ := hostStep_clears_ovr (s := s.setInputs rest) (.inr hd) hset hclear
      exact .inr (.inr ⟨addr, v, rest, hoff, hv, .inr rfl⟩)
    | engine => exact .inl (rst_of_engineTurn_clears_ovr (s := s.setInputs rest) hd hset hclear)
    | rst level =>
      cases hd
      obtain hr | hr | hkept := driveReset_ovr (s.setInputs rest) level
      · exact .inl hr
      · exact .inr (.inl hr)
      · exact absurd (hkept.trans hset) (by simp [hclear])

end Sys2Proof.Proofs
end
